-- ==== Sys2Proof/Word.lean ====
section
/-! DEFINITION. The value types of Bells CORE: words, bytes, scalars, register numbers, the four levels of
the field tower, and the classes a point register holds (spec/00_scope.md R6, R9; spec/10_state.md R31 to R40).
Only types and the prime stand here; every operation on them is in a file directly under Machine/. -/

namespace Sys2Proof

/-- A 32-bit word: an `r` register, the `pc`, an address, a host register, an instruction (R5 `XLEN`, R100). -/
abbrev Word := BitVec 32

/-- One byte of DMEM. -/
abbrev Byte := BitVec 8

/-- A scalar register's value, an unsigned integer below 2^256 (R40). -/
abbrev Scalar := BitVec 256

/-- The number of a register in a file of sixteen (R5 `NREG`, R104). -/
abbrev RegIdx := Fin 16

/-- The prime `p` of R10. -/
def fieldP : Nat :=
  0x1a0111ea397fe69a4b1ba7b6434bacd764774b84f38512bf6730d2a0f6b0f6241eabfffeb153ffffb9feffffffffaaab

theorem fieldP_pos : 0 < fieldP := by decide

/-- A canonical residue, an integer in `[0, p)` (R34, R180): the type itself excludes a value `>= p`. -/
abbrev Fp := Fin fieldP

/-- The residue of a natural number. -/
def toFp (n : Nat) : Fp := ⟨n % fieldP, Nat.mod_lt n fieldP_pos⟩

/-- `c0 + c1·u` with `u² = -1` (R35, R210). -/
structure Fp2 where
  c0 : Fp
  c1 : Fp
  deriving DecidableEq, Repr

/-- `c0 + c1·v + c2·v²` with `v³ = 1 + u` (R36, R240). -/
structure Fp6 where
  c0 : Fp2
  c1 : Fp2
  c2 : Fp2
  deriving DecidableEq, Repr

/-- `c0 + c1·w` with `w² = v` (R37, R270). -/
structure Fp12 where
  c0 : Fp6
  c1 : Fp6
  deriving DecidableEq, Repr

/-- What a point register holds (R38, R39, R300): the identity `O`, or an affine pair that need not satisfy
any curve equation. -/
inductive Point (F : Type) where
  | O
  | aff (x y : F)
  deriving DecidableEq, Repr

/-- The field operations the group layer is generic over (R300, R351). `scale n a` is `n·a`, and `inv` is
total: the group layer applies it to non-zero elements only. -/
structure FieldOps (F : Type) where
  zero : F
  add : F → F → F
  sub : F → F → F
  neg : F → F
  mul : F → F → F
  inv : F → F
  scale : Nat → F → F

end Sys2Proof
end

