-- ==== Sys2Proof/Config.lean ====
section
/-! DEFINITION. The implementation parameters of spec/00_scope.md R5, at the values this hardware takes
(assumption log 1). `SHA256`, the remaining open parameter, is an argument of every function that hashes
(Machine/HashToCurve.lean), and Machine/Sha256.lean holds its default. -/

namespace Sys2Proof.Config

/-- `IMEM_WORDS`, the default of R5 and decision D8. -/
def imemWords : Nat := 1024

/-- `DMEM_BYTES`, the default of R5 and decision D8. -/
def dmemBytes : Nat := 65536

/-- `DST_MAX`: capacity of the tag buffer in bytes (R5, R41). -/
def dstMax : Nat := 2048

/-- `XMD_MAX`: the largest output length of expand_message_xmd (R5, R421). -/
def xmdMax : Nat := 8160

end Sys2Proof.Config
end

