-- ==== Sys2Proof/Machine/State.lean ====
section
/-! DEFINITION. The architectural state of Bells CORE, complete by spec/10_state.md R30: the integer
registers, `pc`, the seven typed register files, the tag buffer, the host registers, IMEM and DMEM. Plain
data throughout. Beside it the exception causes of R471 and the two ways a step could stop without a next
state, of which this machine uses neither. -/

namespace Sys2Proof.Machine

open Sys2Proof

/-- `STATUS.state` (R44). -/
inductive RunState where
  /-- After reset, nothing run yet. -/
  | idle
  /-- The sequencer is executing. -/
  | busy
  /-- The last run ended with `HALT`. -/
  | done
  /-- The last run ended with an exception. -/
  | error
  deriving DecidableEq, Repr

/-- The causes of R471. -/
inductive Cause where
  | illegalInstruction
  | fetchRange
  | dmemRange
  | regRange
  | softwareFail
  | badLength
  | badFlags
  | notOnCurve
  | notInSubgroup
  | scalarOutOfRange
  | nonCanonicalField
  | noInverse
  | noPairing
  | noDivisor
  /-- Reserved: no rule raises it (R486). -/
  | noDivisorIndex
  | emptyList
  | lengthMismatch
  deriving DecidableEq, Repr

/-- `raise X(info)`: a cause and its information word (R7, R471). -/
structure Exn where
  cause : Cause
  info : Word
  deriving DecidableEq, Repr

/-- The value of a computation that may raise (R7). -/
abbrev Res (α : Type) := Except Exn α

/-- The sequencer stopping with no next state. No such stop exists: every exception of R471 is TAKEN, by
R490, and so is a next state; hence no constructor, nobody raises one, and nothing here is unsafe. -/
inductive Fault where
  deriving DecidableEq, Repr

/-- An instruction without a meaning. -/
inductive Refusal where
  /-- The instruction has no meaning in this model yet. Raised by an arm of `exec` only; no arm of this model
  raises it. Safe: nothing is claimed of the instruction. -/
  | notModelled (mnemonic : String)
  deriving DecidableEq, Repr

/-- One register file of sixteen (R5 `NREG`). -/
abbrev RegFile (α : Type) := Vector α 16

/-- The architectural state (R30). -/
structure State where
  /-- `r0..r15`. Slot 0 is never written and reads 0 through `State.readR` (R31). -/
  r : RegFile Word
  /-- The index of an instruction word in IMEM (R32). -/
  pc : Word
  /-- `f0..f15` (R34). -/
  f : RegFile Fp
  /-- `q0..q15` (R35). -/
  q : RegFile Fp2
  /-- `s0..s15` (R36). -/
  s : RegFile Fp6
  /-- `t0..t15` (R37). -/
  t : RegFile Fp12
  /-- `g0..g15` (R38). -/
  g : RegFile (Point Fp)
  /-- `h0..h15` (R39). -/
  h : RegFile (Point Fp2)
  /-- `k0..k15` (R40). -/
  k : RegFile Scalar
  /-- `DSTBUF`; its length is `DSTLEN` (R41). -/
  dstBuf : List Byte
  /-- `STATUS.state` (R44). -/
  status : RunState
  /-- `START_PC` (R43). -/
  startPc : Word
  /-- `ECAUSE` (R46). -/
  ecause : Word
  /-- `EPC` (R46). -/
  epc : Word
  /-- `EINFO` (R46). -/
  einfo : Word
  /-- `INTR_ENABLE` (R49). -/
  intrEnable : Word
  /-- `INTR_STATE` (R50). -/
  intrState : Word
  /-- IMEM: index and word, in the canonical form of `Cells.wf` (R47). -/
  imem : List (Nat × BitVec 32)
  /-- DMEM: address and byte, in the canonical form of `Memory.wf` (R48). -/
  dmem : List Host.Cell
  deriving DecidableEq, Repr

/-- The zero of Fp2. -/
def zero2 : Fp2 := ⟨toFp 0, toFp 0⟩

/-- The zero of Fp6. -/
def zero6 : Fp6 := ⟨zero2, zero2, zero2⟩

/-- The zero of Fp12. -/
def zero12 : Fp12 := ⟨zero6, zero6⟩

/-- The state right after reset (R52, R511). IMEM and DMEM list nothing, so they read as zero, the choice of
their unspecified contents that R511 names (assumption log 2). -/
def State.reset : State where
  r := Vector.replicate 16 0
  pc := 0
  f := Vector.replicate 16 (toFp 0)
  q := Vector.replicate 16 zero2
  s := Vector.replicate 16 zero6
  t := Vector.replicate 16 zero12
  g := Vector.replicate 16 .O
  h := Vector.replicate 16 .O
  k := Vector.replicate 16 0
  dstBuf := []
  status := .idle
  startPc := 0
  ecause := 0
  epc := 0
  einfo := 0
  intrEnable := 0
  intrState := 0
  imem := []
  dmem := []

end Sys2Proof.Machine
end

