-- ==== Sys2Proof/Machine/Ops.lean ====
section
/-! DEFINITION. The named operations every meaning is built from: registers, the two memories, byte strings,
taking an exception (spec/60_exceptions.md R490) and ending an instruction (spec/00_scope.md R7). There is no
return from an exception (R492), so none stands beside it. -/

namespace Sys2Proof.Machine

open Sys2Proof

/-- What an instruction's execution answers. -/
abbrev Out := Host.Outcome State Fault Refusal

/-! Exceptions. -/

/-- The code of a cause (R471). -/
def causeCode (c : Cause) : Nat :=
  match c with
  | .illegalInstruction => 0x10
  | .fetchRange => 0x11
  | .dmemRange => 0x12
  | .regRange => 0x13
  | .softwareFail => 0x14
  | .badLength => 0x20
  | .badFlags => 0x21
  | .notOnCurve => 0x22
  | .notInSubgroup => 0x23
  | .scalarOutOfRange => 0x24
  | .nonCanonicalField => 0x25
  | .noInverse => 0x30
  | .noPairing => 0x31
  | .noDivisor => 0x32
  | .noDivisorIndex => 0x33
  | .emptyList => 0x40
  | .lengthMismatch => 0x41

/-- `raise X` with `EINFO` 0 (R7). -/
def fails (c : Cause) : Exn := ⟨c, 0⟩

/-- TAKING AN EXCEPTION (R490): cause, faulting `pc` and information word go to the host registers, the run
stops in ERROR, `INTR_STATE.error` is set, and nothing else changes; `pc` keeps its value. -/
def takeException (s : State) (e : Exn) : State :=
  { s with
    ecause := BitVec.ofNat 32 (causeCode e.cause)
    epc := s.pc
    einfo := e.info
    status := .error
    intrState := s.intrState ||| 2 }

/-- `pc <- n`. -/
def setPc (s : State) (n : Word) : State := { s with pc := n }

/-- A new content of DMEM. -/
def setDmem (s : State) (m : List Host.Cell) : State := { s with dmem := m }

/-- `DSTBUF <- tag`, and with it `DSTLEN` (spec/10_state.md R41). -/
def setTag (s : State) (tag : List Byte) : State := { s with dstBuf := tag }

/-- The end of an instruction that assigns no `pc`: its new state at the next index (R7, R32), or the exception
it raised, taken in the old state, so that a faulting instruction changes nothing (R491). -/
def retire (s : State) (body : Res State) : Out :=
  match body with
  | .ok u => .next (setPc u (s.pc + 1))
  | .error e => .next (takeException s e)

/-- The end of a run (R134): state DONE, `INTR_STATE.done` set, `pc` unchanged. -/
def haltRun (s : State) : State :=
  { s with status := .done, intrState := s.intrState ||| 1 }

/-! Registers. `r0` is hardwired (R31); no register of another file is. -/

/-- `r[i]` as a source. -/
def readR (s : State) (i : RegIdx) : Word := if i = 0 then 0 else s.r.get i
/-- `f[i]`. -/
def readF (s : State) (i : RegIdx) : Fp := s.f.get i
/-- `q[i]`. -/
def readQ (s : State) (i : RegIdx) : Fp2 := s.q.get i
/-- `s[i]`. -/
def readS (s : State) (i : RegIdx) : Fp6 := s.s.get i
/-- `t[i]`. -/
def readT (s : State) (i : RegIdx) : Fp12 := s.t.get i
/-- `g[i]`. -/
def readG (s : State) (i : RegIdx) : Point Fp := s.g.get i
/-- `h[i]`. -/
def readH (s : State) (i : RegIdx) : Point Fp2 := s.h.get i
/-- `k[i]`. -/
def readK (s : State) (i : RegIdx) : Scalar := s.k.get i

/-- `r[i] <- v`; a write to `r0` is discarded. -/
def writeR (s : State) (i : RegIdx) (v : Word) : State :=
  if i = 0 then s else { s with r := s.r.set i v }
/-- `f[i] <- v`. -/
def writeF (s : State) (i : RegIdx) (v : Fp) : State := { s with f := s.f.set i v }
/-- `q[i] <- v`. -/
def writeQ (s : State) (i : RegIdx) (v : Fp2) : State := { s with q := s.q.set i v }
/-- `s[i] <- v`. -/
def writeS (s : State) (i : RegIdx) (v : Fp6) : State := { s with s := s.s.set i v }
/-- `t[i] <- v`. -/
def writeT (s : State) (i : RegIdx) (v : Fp12) : State := { s with t := s.t.set i v }
/-- `g[i] <- v`. -/
def writeG (s : State) (i : RegIdx) (v : Point Fp) : State := { s with g := s.g.set i v }
/-- `h[i] <- v`. -/
def writeH (s : State) (i : RegIdx) (v : Point Fp2) : State := { s with h := s.h.set i v }
/-- `k[i] <- v`. -/
def writeK (s : State) (i : RegIdx) (v : Scalar) : State := { s with k := s.k.set i v }

/-! Byte strings (R8). -/

/-- `OS2IP`: the integer whose big-endian base-256 digits are the bytes. -/
def os2ip (bytes : List Byte) : Nat := bytes.foldl (fun acc b => acc * 256 + b.toNat) 0

/-- `I2OSP(v, n)`: the `n` big-endian bytes of `v`, for `v < 256^n`. -/
def i2osp (v : Nat) : Nat → List Byte
  | 0 => []
  | n + 1 => BitVec.ofNat 8 (v / 256 ^ n) :: i2osp v n

/-! Memories: cells in rising order of key, none of them zero; an unlisted cell reads 0 (assumption log 2). -/

/-- The cell at a key. -/
def cellsRead {n : Nat} (l : List (Nat × BitVec n)) (key : Nat) : BitVec n :=
  match l with
  | [] => 0#n
  | (k, v) :: rest => if k = key then v else cellsRead rest key

/-- Writing one cell; writing 0 removes it. -/
def cellsWrite {n : Nat} (l : List (Nat × BitVec n)) (key : Nat) (v : BitVec n) : List (Nat × BitVec n) :=
  match l with
  | [] => if v = 0#n then [] else [(key, v)]
  | (k, w) :: rest =>
    if key < k then (if v = 0#n then (k, w) :: rest else (key, v) :: (k, w) :: rest)
    else if key = k then (if v = 0#n then rest else (key, v) :: rest)
    else (k, w) :: cellsWrite rest key v

/-- The canonical form: keys strictly rising and below `bound`, no cell zero. -/
abbrev Cells.wf {n : Nat} (bound : Nat) (l : List (Nat × BitVec n)) : Prop :=
  l.Pairwise (fun x y => x.1 < y.1) ∧ ∀ c ∈ l, c.1 < bound ∧ c.2 ≠ 0#n

/-- The canonical form of DMEM. -/
abbrev Memory.wf (m : List Host.Cell) : Prop := Cells.wf Config.dmemBytes m

/-- `DMEM[a], ..., DMEM[a+n-1]`. -/
def readBytes (m : List Host.Cell) (a : Nat) : Nat → List Byte
  | 0 => []
  | n + 1 => cellsRead m a :: readBytes m (a + 1) n

/-- `DMEM[a+i] <- bytes[i]`, at ascending addresses (R72). -/
def writeBytes (m : List Host.Cell) (a : Nat) (bytes : List Byte) : List Host.Cell :=
  match bytes with
  | [] => m
  | b :: rest => writeBytes (cellsWrite m a b) (a + 1) rest

/-- `MemRead(addr, n)` (R72, R74): nothing is checked when `n = 0`; an access past the end of DMEM raises
DmemRange with the first address of the access. -/
def memRead (s : State) (addr : Word) (n : Nat) : Res (List Byte) :=
  if n = 0 then .ok []
  else if Config.dmemBytes < addr.toNat + n then .error ⟨.dmemRange, addr⟩
  else .ok (readBytes s.dmem addr.toNat n)

/-- `MemWrite(addr, n, v)` with `n` the length of `v` (R72, R74). -/
def memWrite (s : State) (addr : Word) (v : List Byte) : Res State :=
  if v.length = 0 then .ok s
  else if Config.dmemBytes < addr.toNat + v.length then .error ⟨.dmemRange, addr⟩
  else .ok (setDmem s (writeBytes s.dmem addr.toNat v))

/-- The word at `pc`, or FetchRange with that index (R474). -/
def fetchWord (s : State) : Res Word :=
  if Config.imemWords ≤ s.pc.toNat then .error ⟨.fetchRange, s.pc⟩
  else .ok (cellsRead s.imem s.pc.toNat)

end Sys2Proof.Machine
end

