-- ==== Sys2Proof/Machine/Flags.lean ====
section
/-! DEFINITION. Bells CORE has no flags (spec/10_state.md R33): a boolean outcome is a 0 or 1 an instruction
writes to an `r` register. That value, and the three flag bits of the point encodings (spec/45_g1.md R312),
stand here. -/

namespace Sys2Proof.Machine

open Sys2Proof

/-- A boolean outcome as a register value (R33). -/
def boolWord (b : Bool) : Word := if b then 1 else 0

/-- The compression flag, bit 7 of byte 0 (R312). -/
def flagC (b : Byte) : Bool := b.getLsbD 7

/-- The infinity flag, bit 6 of byte 0 (R312). -/
def flagI (b : Byte) : Bool := b.getLsbD 6

/-- The sign flag, bit 5 of byte 0 (R312). -/
def flagS (b : Byte) : Bool := b.getLsbD 5


end Sys2Proof.Machine
end

