-- ==== Sys2Proof/Machine/FpArith.lean ====
section
/-! DEFINITION. Arithmetic of the base field, the functions of spec/41_fp.md R181 to R183, and the generic power
every level of the tower uses. -/

namespace Sys2Proof.Machine

open Sys2Proof

/-- `fadd(a,b) = (a + b) mod p` (R181). -/
def fadd (a b : Fp) : Fp := toFp (a.val + b.val)

/-- `fsub(a,b) = (a - b) mod p` (R181). -/
def fsub (a b : Fp) : Fp := toFp (a.val + (fieldP - b.val))

/-- `fneg(a) = (p - a) mod p` (R181). -/
def fneg (a : Fp) : Fp := toFp (fieldP - a.val)

/-- `fmul(a,b) = (a·b) mod p` (R181). -/
def fmul (a b : Fp) : Fp := toFp (a.val * b.val)

/-- `fsqr(a)` (R181). -/
def fsqr (a : Fp) : Fp := fmul a a

/-- Square and multiply, from the low bit up, for as many bits as `fuel`. -/
def powLoop {α : Type} (mul : α → α → α) : Nat → α → Nat → α → α
  | 0, _, _, acc => acc
  | fuel + 1, base, n, acc =>
    powLoop mul fuel (mul base base) (n / 2) (if n % 2 = 1 then mul acc base else acc)

/-- `a^n` by square and multiply; that it is the repeated multiplication of spec/00_scope.md R9 is
`powBy_eq_repMul` in Laws/Pow.lean. -/
def powBy {α : Type} (mul : α → α → α) (one a : α) (n : Nat) : α := powLoop mul (n.log2 + 1) a n one

/-- `fpow(a, n) = a^n mod p` (R183). -/
def fpow (a : Fp) (n : Nat) : Fp := powBy fmul (toFp 1) a n

/-- The inverse of a non-zero element, as `a^(p-2)` (R182); 0 goes to 0. -/
def finvTotal (a : Fp) : Fp := fpow a (fieldP - 2)

/-- `finv(a)` (R182). -/
def finv (a : Fp) : Res Fp := if a.val = 0 then .error (fails .noInverse) else .ok (finvTotal a)

/-- `fdiv(a,b)` (R182). -/
def fdiv (a b : Fp) : Res Fp := do
  let i ← finv b
  .ok (fmul a i)

/-- `fsqrt(a)`, `none` for "no root" (R183). -/
def fsqrt (a : Fp) : Option Fp :=
  let cand := fpow a ((fieldP + 1) / 4)
  if fmul cand cand = a then some cand else none

end Sys2Proof.Machine
end

