-- ==== Sys2Proof/Machine/Constants.lean ====
section
/-! DEFINITION. The numeric constants of spec/00_scope.md section 5, transcribed digit for digit (R10 to R18). -/

namespace Sys2Proof.Machine

open Sys2Proof

/-- `X_ABS` (R10). -/
def xAbs : Nat := 0xd201000000010000

/-- The subgroup order `r` (R10). -/
def orderR : Nat := 0x73eda753299d7d483339d80809a1d80553bda402fffe5bfeffffffff00000001

/-- `HALF = (p-1)/2` (R18). -/
def halfP : Nat := (fieldP - 1) / 2

/-- `(p²+7)/16` (R10). -/
def sqrtExp2 : Nat := (fieldP * fieldP + 7) / 16

/-- `INV2 = (p+1)/2` (R18). -/
def inv2 : Fp := toFp 0x0d0088f51cbff34d258dd3db21a5d66bb23ba5c279c2895fb39869507b587b120f55ffff58a9ffffdcff7fffffffd556

/-- An Fp2 constant from two integers. -/
def mkFp2 (c0 c1 : Nat) : Fp2 := ⟨toFp c0, toFp c1⟩

/-- The one of Fp2 (R210). -/
def one2 : Fp2 := mkFp2 1 0

/-- The one of Fp6 (R240). -/
def one6 : Fp6 := ⟨one2, zero2, zero2⟩

/-- The one of Fp12 (R270). -/
def one12 : Fp12 := ⟨one6, zero6⟩

/-- `b1 = 4` (R11). -/
def b1 : Fp := toFp 4

/-- `b2 = (4, 4)` (R11). -/
def b2 : Fp2 := mkFp2 4 4

/-- `GEN1` (R11). -/
def gen1 : Point Fp := .aff
  (toFp 0x17f1d3a73197d7942695638c4fa9ac0fc3688c4f9774b905a14e3a3f171bac586c55e83ff97a1aeffb3af00adb22c6bb)
  (toFp 0x08b3f481e3aaa0f1a09e30ed741d8ae4fcf5e095d5d00af600db18cb2c04b3edd03cc744a2888ae40caa232946c5e7e1)

/-- `GEN2` (R11). -/
def gen2 : Point Fp2 := .aff
  (mkFp2
    0x024aa2b2f08f0a91260805272dc51051c6e47ad4fa403b02b4510b647ae3d1770bac0326a805bbefd48056c8c121bdb8
    0x13e02b6052719f607dacd3a088274f65596bd0d09920b61ab5da61bbdc7f5049334cf11213945d57e5ac7d055d042b7e)
  (mkFp2
    0x0ce5d527727d6e118cc9cdc6da2e351aadfd9baa8cbdd3a76d429a695160d12c923ac9cc3baca289e193548608b82801
    0x0606c4a02ea734cc32acd2b02bc28b99cb3e287e85a763af267492ab572e99ab3f370d275cec1da1aaa9075ff05f79be)

/-- `BETA` (R12). -/
def beta : Fp := toFp 0x5f19672fdf76ce51ba69c6076a0f77eaddb3a93be6f89688de17d813620a00022e01fffffffefffe

/-- `PSI2_C` (R12). -/
def psi2C : Fp :=
  toFp 0x1a0111ea397fe699ec02408663d4de85aa0d857d89759ad4897d29650fb85f9b409427eb4f49fffd8bfd00000000aaac

/-- `PSI_CX` (R12). -/
def psiCX : Fp2 :=
  mkFp2 0 0x1a0111ea397fe699ec02408663d4de85aa0d857d89759ad4897d29650fb85f9b409427eb4f49fffd8bfd00000000aaad

/-- `PSI_CY` (R12). -/
def psiCY : Fp2 :=
  mkFp2
    0x135203e60180a68ee2e9c448d77a2cd91c3dedd930b1cf60ef396489f61eb45e304466cf3e67fa0af1ee7b04121bdea2
    0x06af0e0437ff400b6831e36d6bd17ffe48395dabc2d3435e77f76e17009241c5ee67992f72ec05f4c81084fbede3cc09

/-- `RV1` (R13). -/
def rv1 : Nat := 0x06af0e0437ff400b6831e36d6bd17ffe48395dabc2d3435e77f76e17009241c5ee67992f72ec05f4c81084fbede3cc09

/-- `p - RV1` (R13). -/
def nrv1 : Nat := 0x135203e60180a68ee2e9c448d77a2cd91c3dedd930b1cf60ef396489f61eb45e304466cf3e67fa0af1ee7b04121bdea2

/-- `ROOT[k]`, `k = 0..7` (R13). -/
def root (k : Nat) : Fp2 :=
  match k with
  | 0 => mkFp2 1 0
  | 1 => mkFp2 rv1 nrv1
  | 2 => mkFp2 0 1
  | 3 => mkFp2 rv1 rv1
  | 4 => mkFp2 (fieldP - 1) 0
  | 5 => mkFp2 nrv1 rv1
  | 6 => mkFp2 0 (fieldP - 1)
  | _ => mkFp2 nrv1 nrv1

/-- `B1 = BETA + 1` (R14). -/
def betaSucc : Nat := 0x5f19672fdf76ce51ba69c6076a0f77eaddb3a93be6f89688de17d813620a00022e01fffffffeffff

/-- `B21 = BETA² + 1` (R14). -/
def beta2Succ : Nat :=
  0x1a0111ea397fe699ec02408663d4de85aa0d857d89759ad4897d29650fb85f9b409427eb4f49fffd8bfd00000000aaad

/-- `G6A[k]`, `k = 0..5` (R14). -/
def g6a (k : Nat) : Fp2 :=
  match k with
  | 0 => mkFp2 1 0
  | 1 => mkFp2 0 psi2C.val
  | 2 => mkFp2 beta.val 0
  | 3 => mkFp2 0 1
  | 4 => mkFp2 psi2C.val 0
  | _ => mkFp2 0 beta.val

/-- `G6B[k]`, `k = 0..5` (R14). -/
def g6b (k : Nat) : Fp2 :=
  match k with
  | 0 => mkFp2 1 0
  | 1 => mkFp2 beta2Succ 0
  | 2 => mkFp2 psi2C.val 0
  | 3 => mkFp2 (fieldP - 1) 0
  | 4 => mkFp2 beta.val 0
  | _ => mkFp2 betaSucc 0

/-- The two coefficients of `G12[1]` (R14). -/
def g12One : Nat × Nat :=
  (0x1904d3bf02bb0667c231beb4202c0d1f0fd603fd3cbd5f4f7b2443d784bab9c4f67ea53d63e7813d8d0775ed92235fb8,
   0x00fc3e2b36c4e03288e9e902231f9fb854a14787b6c7b36fec0c8ec971f63c5f282d5ac14d6c7ec22cf78a126ddc4af3)

/-- The two coefficients of `G12[5]` (R14). -/
def g12Five : Nat × Nat :=
  (0x144e4211384586c16bd3ad4afa99cc9170df3560e77982d0db45f3536814f0bd5871c1908bd478cd1ee605167ff82995,
   0x05b2cfd9013a5fd8df47fa6b48b1e045f39816240c0b8fee8beadf4d8e9c0566c63a3e6e257f87329b18fae980078116)

/-- `G12[k]`, `k = 0..11` (R14). -/
def g12 (k : Nat) : Fp2 :=
  match k with
  | 0 => mkFp2 1 0
  | 1 => mkFp2 g12One.1 g12One.2
  | 2 => mkFp2 betaSucc 0
  | 3 => mkFp2 nrv1 rv1
  | 4 => mkFp2 beta.val 0
  | 5 => mkFp2 g12Five.1 g12Five.2
  | 6 => mkFp2 (fieldP - 1) 0
  | 7 => mkFp2 g12One.2 g12One.1
  | 8 => mkFp2 psi2C.val 0
  | 9 => mkFp2 rv1 nrv1
  | 10 => mkFp2 beta2Succ 0
  | _ => mkFp2 g12Five.2 g12Five.1

/-- `A′ = (0, 240)` (R15). -/
def sswuA : Fp2 := mkFp2 0 240

/-- `B′ = (1012, 1012)` (R15). -/
def sswuB : Fp2 := mkFp2 1012 1012

/-- `Z = (p-2, p-1)` (R15). -/
def sswuZ : Fp2 := mkFp2 (fieldP - 2) (fieldP - 1)

/-- `XNUM` (R16), index = power of x′. -/
def isoXNum : List Fp2 :=
  [mkFp2 0x05c759507e8e333ebb5b7a9a47d7ed8532c52d39fd3a042a88b58423c50ae15d5c2638e343d9c71c6238aaaaaaaa97d6
    0x05c759507e8e333ebb5b7a9a47d7ed8532c52d39fd3a042a88b58423c50ae15d5c2638e343d9c71c6238aaaaaaaa97d6,
   mkFp2 0
    0x11560bf17baa99bc32126fced787c88f984f87adf7ae0c7f9a208c6b4f20a4181472aaa9cb8d555526a9ffffffffc71a,
   mkFp2 0x11560bf17baa99bc32126fced787c88f984f87adf7ae0c7f9a208c6b4f20a4181472aaa9cb8d555526a9ffffffffc71e
    0x08ab05f8bdd54cde190937e76bc3e447cc27c3d6fbd7063fcd104635a790520c0a395554e5c6aaaa9354ffffffffe38d,
   mkFp2 0x171d6541fa38ccfaed6dea691f5fb614cb14b4e7f4e810aa22d6108f142b85757098e38d0f671c7188e2aaaaaaaa5ed1
    0]

/-- `XDEN` (R16), index = power of x′. -/
def isoXDen : List Fp2 :=
  [mkFp2 0
    0x1a0111ea397fe69a4b1ba7b6434bacd764774b84f38512bf6730d2a0f6b0f6241eabfffeb153ffffb9feffffffffaa63,
   mkFp2 0xc
    0x1a0111ea397fe69a4b1ba7b6434bacd764774b84f38512bf6730d2a0f6b0f6241eabfffeb153ffffb9feffffffffaa9f,
   mkFp2 1
    0,
   mkFp2 0
    0]

/-- `YNUM` (R16), index = power of x′. -/
def isoYNum : List Fp2 :=
  [mkFp2 0x1530477c7ab4113b59a4c18b076d11930f7da5d4a07f649bf54439d87d27e500fc8c25ebf8c92f6812cfc71c71c6d706
    0x1530477c7ab4113b59a4c18b076d11930f7da5d4a07f649bf54439d87d27e500fc8c25ebf8c92f6812cfc71c71c6d706,
   mkFp2 0
    0x05c759507e8e333ebb5b7a9a47d7ed8532c52d39fd3a042a88b58423c50ae15d5c2638e343d9c71c6238aaaaaaaa97be,
   mkFp2 0x11560bf17baa99bc32126fced787c88f984f87adf7ae0c7f9a208c6b4f20a4181472aaa9cb8d555526a9ffffffffc71c
    0x08ab05f8bdd54cde190937e76bc3e447cc27c3d6fbd7063fcd104635a790520c0a395554e5c6aaaa9354ffffffffe38f,
   mkFp2 0x124c9ad43b6cf79bfbf7043de3811ad0761b0f37a1e26286b0e977c69aa274524e79097a56dc4bd9e1b371c71c718b10
    0]

/-- `YDEN` (R16), index = power of x′. -/
def isoYDen : List Fp2 :=
  [mkFp2 0x1a0111ea397fe69a4b1ba7b6434bacd764774b84f38512bf6730d2a0f6b0f6241eabfffeb153ffffb9feffffffffa8fb
    0x1a0111ea397fe69a4b1ba7b6434bacd764774b84f38512bf6730d2a0f6b0f6241eabfffeb153ffffb9feffffffffa8fb,
   mkFp2 0
    0x1a0111ea397fe69a4b1ba7b6434bacd764774b84f38512bf6730d2a0f6b0f6241eabfffeb153ffffb9feffffffffa9d3,
   mkFp2 0x12
    0x1a0111ea397fe69a4b1ba7b6434bacd764774b84f38512bf6730d2a0f6b0f6241eabfffeb153ffffb9feffffffffaa99,
   mkFp2 1
    0]

/-- `"H2C-OVERSIZE-DST-"` as ASCII bytes (R18). -/
def oversizeTag : List Byte :=
  [0x48, 0x32, 0x43, 0x2d, 0x4f, 0x56, 0x45, 0x52, 0x53, 0x49, 0x5a, 0x45, 0x2d, 0x44, 0x53, 0x54, 0x2d]

end Sys2Proof.Machine
end

