-- ==== Sys2Proof/Machine/Fp2Arith.lean ====
section
/-! DEFINITION. Arithmetic of Fp2, the functions of spec/42_fp2.md R211 to R214. -/

namespace Sys2Proof.Machine

open Sys2Proof

/-- `q_add` (R211). -/
def qAdd (a b : Fp2) : Fp2 := ⟨fadd a.c0 b.c0, fadd a.c1 b.c1⟩

/-- `q_sub` (R211). -/
def qSub (a b : Fp2) : Fp2 := ⟨fsub a.c0 b.c0, fsub a.c1 b.c1⟩

/-- `q_neg` (R211). -/
def qNeg (a : Fp2) : Fp2 := ⟨fneg a.c0, fneg a.c1⟩

/-- `q_mul` (R211). -/
def qMul (a b : Fp2) : Fp2 :=
  ⟨fsub (fmul a.c0 b.c0) (fmul a.c1 b.c1), fadd (fmul a.c0 b.c1) (fmul a.c1 b.c0)⟩

/-- `q_sqr` (R211). -/
def qSqr (a : Fp2) : Fp2 := qMul a a

/-- `q_mulf`, scaling by an element of Fp (R211). -/
def qMulf (a : Fp2) (c : Fp) : Fp2 := ⟨fmul a.c0 c, fmul a.c1 c⟩

/-- `q_conj` (R211). -/
def qConj (a : Fp2) : Fp2 := ⟨a.c0, fneg a.c1⟩

/-- `q_mulnr`, multiplication by `ξ = 1 + u` (R211). -/
def qMulnr (a : Fp2) : Fp2 := ⟨fsub a.c0 a.c1, fadd a.c0 a.c1⟩

/-- The formula of `q_inv` (R212), for a non-zero operand; 0 goes to 0. -/
def qInvTotal (a : Fp2) : Fp2 :=
  let factor := finvTotal (fadd (fmul a.c0 a.c0) (fmul a.c1 a.c1))
  ⟨fmul a.c0 factor, fneg (fmul a.c1 factor)⟩

/-- `q_inv`, which raises NoInverse exactly at `(0,0)` (R212; assumption log 7). -/
def qInv (a : Fp2) : Res Fp2 := if a = zero2 then .error (fails .noInverse) else .ok (qInvTotal a)

/-- `q_div` (R212). -/
def qDiv (a b : Fp2) : Res Fp2 := do
  let i ← qInv b
  .ok (qMul a i)

/-- `q_pow` (R213). -/
def qPow (a : Fp2) (n : Nat) : Fp2 := powBy qMul one2 a n

/-- The table `FROB2 = [1, p-1]` (R213). -/
def frob2 (k : Nat) : Fp := if k % 2 = 0 then toFp 1 else toFp (fieldP - 1)

/-- `q_frob` (R213). -/
def qFrob (a : Fp2) (k : Nat) : Fp2 := ⟨a.c0, fmul a.c1 (frob2 k)⟩

/-- `q_sgn0`, true for "negative" (R213). -/
def qSgn0 (a : Fp2) : Bool := a.c0.val % 2 = 1 || (a.c0.val = 0 && a.c1.val % 2 = 1)

/-- The even index `i` with `ROOT[i] = check`, if there is one (R214). -/
def evenRootIndex (check : Fp2) : Option Nat := [0, 2, 4, 6].find? (fun i => root i = check)

/-- The lexicographically greater of two values by (imaginary, real), on integers (R214). -/
def qGreater (x1 x2 : Fp2) : Fp2 :=
  if x2.c1.val < x1.c1.val || (x1.c1.val = x2.c1.val && decide (x2.c0.val < x1.c0.val)) then x1 else x2

/-- `q_sqrt` (R214): NoInverse at `(0,0)`, NoDivisor where no root matches. -/
def qSqrt (a : Fp2) : Res Fp2 := do
  let cand := qPow a sqrtExp2
  let check ← qDiv (qSqr cand) a
  match evenRootIndex check with
  | none => .error (fails .noDivisor)
  | some i =>
    let x1 ← qDiv cand (root (i / 2))
    .ok (qGreater x1 (qNeg x1))

end Sys2Proof.Machine
end

