-- ==== Sys2Proof/Machine/Group.lean ====
section
/-! DEFINITION. The group layer on classes, generic over the field (spec/45_g1.md R300 to R305, R307;
spec/46_g2.md R351). Every function is total, on pairs off the curve too (R300). -/

namespace Sys2Proof.Machine

open Sys2Proof

/-- Fp as the group layer sees it. -/
def opsFp : FieldOps Fp where
  zero := toFp 0
  add := fadd
  sub := fsub
  neg := fneg
  mul := fmul
  inv := finvTotal
  scale := fun n a => fmul (toFp n) a

/-- Fp2 as the group layer sees it (R351). -/
def opsFp2 : FieldOps Fp2 where
  zero := zero2
  add := qAdd
  sub := qSub
  neg := qNeg
  mul := qMul
  inv := qInvTotal
  scale := fun n a => qMulf a (toFp n)

/-- The tangent formula of `dbl`, with `λ = 3·x² / (2·y)` (R302). -/
def tangent {F : Type} (ops : FieldOps F) (x y : F) : Point F :=
  let l := ops.mul (ops.scale 3 (ops.mul x x)) (ops.inv (ops.scale 2 y))
  let x3 := ops.sub (ops.mul l l) (ops.scale 2 x)
  .aff x3 (ops.sub (ops.mul l (ops.sub x x3)) y)

/-- `dbl` (R302). -/
def ptDbl {F : Type} [DecidableEq F] (ops : FieldOps F) (a : Point F) : Point F :=
  match a with
  | .O => .O
  | .aff x y => if y = ops.zero then .O else tangent ops x y

/-- The chord formula of `add`, with `λ = (y2 - y1) / (x2 - x1)` (R303). -/
def chord {F : Type} (ops : FieldOps F) (x1 y1 x2 y2 : F) : Point F :=
  let l := ops.mul (ops.sub y2 y1) (ops.inv (ops.sub x2 x1))
  let x3 := ops.sub (ops.sub (ops.mul l l) x1) x2
  .aff x3 (ops.sub (ops.mul l (ops.sub x1 x3)) y1)

/-- `add` (R303). -/
def ptAdd {F : Type} [DecidableEq F] (ops : FieldOps F) (a b : Point F) : Point F :=
  match a, b with
  | .O, _ => b
  | .aff _ _, .O => a
  | .aff x1 y1, .aff x2 y2 =>
    if x1 = x2 then (if y1 = y2 then ptDbl ops a else .O) else chord ops x1 y1 x2 y2

/-- `neg` (R304). -/
def ptNeg {F : Type} (ops : FieldOps F) (a : Point F) : Point F :=
  match a with
  | .O => .O
  | .aff x y => .aff x (ops.neg y)

/-- `sub` (R304). -/
def ptSub {F : Type} [DecidableEq F] (ops : FieldOps F) (a b : Point F) : Point F :=
  ptAdd ops a (ptNeg ops b)

/-- The loop of `mul`, least significant bit first (R305); `fuel` bounds its passes. -/
def mulLoop {F : Type} [DecidableEq F] (ops : FieldOps F) : Nat → Nat → Point F → Point F → Point F
  | 0, _, acc, _ => acc
  | fuel + 1, n, acc, d =>
    if n = 0 then acc
    else mulLoop ops fuel (n / 2) (if n % 2 = 1 then ptAdd ops acc d else acc) (ptDbl ops d)

/-- `mul(A, n)` (R305). -/
def ptMul {F : Type} [DecidableEq F] (ops : FieldOps F) (a : Point F) (n : Nat) : Point F :=
  mulLoop ops (n.log2 + 1) n .O a

/-- The class of a projective triple with `Z != 0`; `inv` is applied to `Z` (R300, R317, R359). -/
def toAffine {F : Type} (ops : FieldOps F) (x y z : F) : Point F :=
  .aff (ops.mul x (ops.inv z)) (ops.mul y (ops.inv z))

/-- Whether a class is the identity. -/
def isO {F : Type} (a : Point F) : Bool :=
  match a with
  | .O => true
  | .aff _ _ => false

end Sys2Proof.Machine
end

