-- ==== Sys2Proof/Machine/G1Group.lean ====
section
/-! DEFINITION. The functions on G1 classes: curve, endomorphism, subgroup test, cofactor and the byte
encodings (spec/45_g1.md R301, R308 to R314) and the two checked decodings of R335 and R336. -/

namespace Sys2Proof.Machine

open Sys2Proof

/-- `x³ + 4` (R301). -/
def curveRhs (x : Fp) : Fp := fadd (fmul (fmul x x) x) b1

/-- `oncurve` (R301). -/
def oncurve (a : Point Fp) : Bool :=
  match a with
  | .O => true
  | .aff x y => fmul y y = curveRhs x

/-- `mul(A, n)` over Fp (R305). -/
def mul1 (a : Point Fp) (n : Nat) : Point Fp := ptMul opsFp a n

/-- `phi` (R308). -/
def phi (a : Point Fp) : Point Fp :=
  match a with
  | .O => .O
  | .aff x y => .aff (fmul beta x) y

/-- `insub1` (R309). -/
def insub1 (a : Point Fp) : Bool :=
  match a with
  | .O => true
  | .aff _ _ => ptNeg opsFp (mul1 (mul1 a xAbs) xAbs) = phi a

/-- `valid1` (R309). -/
def valid1 (a : Point Fp) : Bool := oncurve a && insub1 a

/-- `clear1` (R310). -/
def clear1 (a : Point Fp) : Point Fp := ptAdd opsFp (mul1 a xAbs) a

/-- `sign1`, true for 1 (R314). -/
def sign1 (y : Fp) : Bool := halfP < y.val

/-- `compress1` (R312). -/
def compress1 (a : Point Fp) : List Byte :=
  match a with
  | .O => 0xC0 :: List.replicate 47 0
  | .aff x y => i2osp (2 ^ 383 + (if sign1 y then 2 ^ 381 else 0) + x.val) 48

/-- `uncompressed1` (R313). -/
def uncompressed1 (a : Point Fp) : List Byte :=
  match a with
  | .O => 0x40 :: List.replicate 95 0
  | .aff x y => i2osp x.val 48 ++ i2osp y.val 48

/-- A coordinate, or NonCanonicalField when it is `>= p` (R482). -/
def canonical (v : Nat) : Res Fp :=
  if fieldP ≤ v then .error (fails .nonCanonicalField) else .ok (toFp v)

/-- The point with a given `x` and sign flag, checked (R335 from the square root on). -/
def liftX1 (x : Fp) (s : Bool) : Res (Point Fp) :=
  match fsqrt (curveRhs x) with
  | none => .error (fails .notOnCurve)
  | some y0 =>
    let y := if sign1 y0 = s then y0 else fneg y0
    if insub1 (.aff x y) then .ok (.aff x y) else .error (fails .notInSubgroup)

/-- The compressed form of 48 bytes, decoded with every check of R335 in its order. -/
def decompress1 (bytes : List Byte) : Res (Point Fp) :=
  let v := os2ip bytes
  let x := v % 2 ^ 381
  if v.testBit 383 = false then .error (fails .badFlags)
  else if v.testBit 382 then
    (if v.testBit 381 || x != 0 then .error (fails .badFlags) else .ok .O)
  else do
    let xf ← canonical x
    liftX1 xf (v.testBit 381)

/-- A pair after the curve and subgroup checks (R336). -/
def checked1 (a : Point Fp) : Res (Point Fp) :=
  if oncurve a = false then .error (fails .notOnCurve)
  else if insub1 a = false then .error (fails .notInSubgroup)
  else .ok a

/-- The uncompressed form of 96 bytes, decoded with every check of R336 in its order. -/
def decodeU1 (bytes : List Byte) : Res (Point Fp) :=
  let top := bytes.headD 0
  let x := os2ip (bytes.take 48) % 2 ^ 381
  let y := os2ip (bytes.drop 48)
  if flagC top || flagS top then .error (fails .badFlags)
  else if flagI top then
    (if x != 0 || y != 0 then .error (fails .badFlags) else .ok .O)
  else do
    let xf ← canonical x
    let yf ← canonical y
    checked1 (.aff xf yf)

end Sys2Proof.Machine
end

