-- ==== Sys2Proof/Machine/G2Group.lean ====
section
/-! DEFINITION. The functions on G2 classes: curve, endomorphisms, subgroup test, cofactor and the byte
encodings (spec/46_g2.md R350 to R357) and the two checked decodings of R378 and R379. -/

namespace Sys2Proof.Machine

open Sys2Proof

/-- `x³ + (4,4)` (R350). -/
def curveRhs2 (x : Fp2) : Fp2 := qAdd (qMul (qMul x x) x) b2

/-- `oncurve2` (R350). -/
def oncurve2 (a : Point Fp2) : Bool :=
  match a with
  | .O => true
  | .aff x y => qMul y y = curveRhs2 x

/-- `mul(A, n)` over Fp2 (R351). -/
def mul2 (a : Point Fp2) (n : Nat) : Point Fp2 := ptMul opsFp2 a n

/-- `psi` (R352). -/
def psi (a : Point Fp2) : Point Fp2 :=
  match a with
  | .O => .O
  | .aff x y => .aff (qMul (qConj x) psiCX) (qMul (qConj y) psiCY)

/-- `psi2` (R353). -/
def psi2 (a : Point Fp2) : Point Fp2 :=
  match a with
  | .O => .O
  | .aff x y => .aff (qMulf x psi2C) (qNeg y)

/-- `mx`, multiplication by the signed `x` (R355). -/
def mulX2 (a : Point Fp2) : Point Fp2 := ptNeg opsFp2 (mul2 a xAbs)

/-- `insub2` (R354). -/
def insub2 (a : Point Fp2) : Bool :=
  match a with
  | .O => true
  | .aff _ _ => mulX2 a = psi a

/-- `valid2` (R354). -/
def valid2 (a : Point Fp2) : Bool := oncurve2 a && insub2 a

/-- `clear2` (R355), the chain as written there. -/
def clear2 (a : Point Fp2) : Point Fp2 :=
  let t1 := mulX2 a
  let t2 := psi a
  let t3 := ptSub opsFp2 (psi2 (ptDbl opsFp2 a)) t2
  let t2 := mulX2 (ptAdd opsFp2 t1 t2)
  let t3 := ptSub opsFp2 (ptAdd opsFp2 t3 t2) t1
  ptSub opsFp2 t3 a

/-- `sign2`, true for 1 (R356). -/
def sign2 (y : Fp2) : Bool := if y.c1.val != 0 then halfP < y.c1.val else halfP < y.c0.val

/-- `compress2` (R356). -/
def compress2 (a : Point Fp2) : List Byte :=
  match a with
  | .O => 0xC0 :: List.replicate 95 0
  | .aff x y => i2osp (2 ^ 383 + (if sign2 y then 2 ^ 381 else 0) + x.c1.val) 48 ++ i2osp x.c0.val 48

/-- `uncompressed2` (R357). -/
def uncompressed2 (a : Point Fp2) : List Byte :=
  match a with
  | .O => 0x40 :: List.replicate 191 0
  | .aff x y => i2osp x.c1.val 48 ++ i2osp x.c0.val 48 ++ i2osp y.c1.val 48 ++ i2osp y.c0.val 48

/-- The point with a given `x` and sign flag, checked (R378 from the square root on). Any exception of `q_sqrt`
is reported as NotOnCurve: `x³ + (4,4)` is never zero, so NoDivisor is the only one (assumption log 8). -/
def liftX2 (x : Fp2) (s : Bool) : Res (Point Fp2) :=
  match qSqrt (curveRhs2 x) with
  | .error _ => .error (fails .notOnCurve)
  | .ok y0 =>
    let y := if sign2 y0 = s then y0 else qNeg y0
    if insub2 (.aff x y) then .ok (.aff x y) else .error (fails .notInSubgroup)

/-- The compressed form of 96 bytes, decoded with every check of R378 in its order. -/
def decompress2 (bytes : List Byte) : Res (Point Fp2) :=
  let top := bytes.headD 0
  let x1 := os2ip (bytes.take 48) % 2 ^ 381
  let x0 := os2ip (bytes.drop 48)
  if flagC top = false then .error (fails .badFlags)
  else if flagI top then
    (if flagS top || x1 != 0 || x0 != 0 then .error (fails .badFlags) else .ok .O)
  else do
    let c1 ← canonical x1
    let c0 ← canonical x0
    liftX2 ⟨c0, c1⟩ (flagS top)

/-- A pair after the curve and subgroup checks (R379). -/
def checked2 (a : Point Fp2) : Res (Point Fp2) :=
  if oncurve2 a = false then .error (fails .notOnCurve)
  else if insub2 a = false then .error (fails .notInSubgroup)
  else .ok a

/-- The 48-byte limb number `i` of a byte string. -/
def limb (bytes : List Byte) (i : Nat) : Nat := os2ip ((bytes.drop (48 * i)).take 48)

/-- The uncompressed form of 192 bytes, decoded with every check of R379 in its order. -/
def decodeU2 (bytes : List Byte) : Res (Point Fp2) :=
  let top := bytes.headD 0
  let x1 := limb bytes 0 % 2 ^ 381
  let x0 := limb bytes 1
  let y1 := limb bytes 2
  let y0 := limb bytes 3
  if flagC top || flagS top then .error (fails .badFlags)
  else if flagI top then
    (if x1 != 0 || x0 != 0 || y1 != 0 || y0 != 0 then .error (fails .badFlags) else .ok .O)
  else do
    let x1f ← canonical x1
    let x0f ← canonical x0
    let y1f ← canonical y1
    let y0f ← canonical y0
    checked2 (.aff ⟨x0f, x1f⟩ ⟨y0f, y1f⟩)

end Sys2Proof.Machine
end

