-- ==== Sys2Proof/Machine/HashToCurve.lean ====
section
/-! DEFINITION. The hash-to-curve mapper (spec/48_hash_to_curve.md R421 to R428). Every function that hashes
takes `sha`, the function `SHA256` of spec/00_scope.md R27, as its first argument. -/

namespace Sys2Proof.Machine

open Sys2Proof

/-- The tag as it is used: hashed down when it is longer than 255 bytes (R421). -/
def shortDst (sha : List Byte → List Byte) (dst : List Byte) : List Byte :=
  if 255 < dst.length then sha (oversizeTag ++ dst) else dst

/-- `DST'` (R421). -/
def dstPrime (sha : List Byte → List Byte) (dst : List Byte) : List Byte :=
  shortDst sha dst ++ i2osp (shortDst sha dst).length 1

/-- The blocks `B[i]`, `B[i+1]`, ... after `B[i-1] = prev`, `n` of them (R421). -/
def xmdBlocks (sha : List Byte → List Byte) (m' dst' : List Byte) : Nat → Nat → List Byte → List Byte
  | 0, _, _ => []
  | n + 1, i, prev =>
    let b := sha (List.zipWith (· ^^^ ·) m' prev ++ i2osp (i + 1) 1 ++ dst')
    b ++ xmdBlocks sha m' dst' n (i + 1) b

/-- `xmd(msg, DST, L)` for `L <= 8160` (R421). -/
def xmd (sha : List Byte → List Byte) (msg dst : List Byte) (len : Nat) : List Byte :=
  let dst' := dstPrime sha dst
  let m' := sha (List.replicate 64 0 ++ msg ++ i2osp len 2 ++ [0x00] ++ dst')
  let ell := (len + 31) / 32
  let b0 := sha (m' ++ [0x01] ++ dst')
  (b0 ++ xmdBlocks sha m' dst' (ell - 1) 1 b0).take len

/-- `OS2IP(U[i .. i+63]) mod p` (R422). -/
def chunkFp (u : List Byte) (i : Nat) : Fp := toFp (os2ip ((u.drop i).take 64))

/-- `hash_to_field(msg)` under a tag (R422). -/
def hashToField (sha : List Byte → List Byte) (msg dst : List Byte) : Fp2 × Fp2 :=
  let u := xmd sha msg dst 256
  (⟨chunkFp u 0, chunkFp u 64⟩, ⟨chunkFp u 128, chunkFp u 192⟩)

/-- `g′(x)` (R423). -/
def gPrime (x : Fp2) : Fp2 := qAdd (qAdd (qMul (qMul x x) x) (qMul sswuA x)) sswuB

/-- A square root in Fp2 where there is one, decided by `q_sqrt`; the root of 0, which `q_sqrt` refuses, is 0
(R424; assumption log 8). -/
def squareRoot2 (a : Fp2) : Option Fp2 :=
  if a = zero2 then some zero2
  else
    match qSqrt a with
    | .ok y => some y
    | .error _ => none

/-- The first candidate `x1` of `sswu` (R424). -/
def sswuX1 (u : Fp2) : Fp2 :=
  let zu2 := qMul sswuZ (qMul u u)
  let tv1 := qAdd (qMul zu2 zu2) zu2
  if tv1 = zero2 then qMul sswuB (qInvTotal (qMul sswuZ sswuA))
  else qMul (qMul (qNeg sswuB) (qInvTotal sswuA)) (qAdd one2 (qInvTotal tv1))

/-- `sswu(u)` (R424). The default of the second root is never used: where `g′(x1)` is no square, `g′(x)` is one. -/
def sswu (u : Fp2) : Point Fp2 :=
  let x1 := sswuX1 u
  let x2 := qMul (qMul sswuZ (qMul u u)) x1
  let xy :=
    match squareRoot2 (gPrime x1) with
    | some y => (x1, y)
    | none => (x2, (squareRoot2 (gPrime x2)).getD zero2)
  .aff xy.1 (if qSgn0 u = qSgn0 xy.2 then xy.2 else qNeg xy.2)

/-- `poly(K, x)`: the coefficients by rising power (R426). -/
def poly (k : List Fp2) (x : Fp2) : Fp2 :=
  match k with
  | [] => zero2
  | c :: rest => qAdd c (qMul (poly rest x) x)

/-- `iso` (R426). -/
def iso (a : Point Fp2) : Point Fp2 :=
  match a with
  | .O => .O
  | .aff x y =>
    let xd := poly isoXDen x
    let yd := poly isoYDen x
    if xd = zero2 || yd = zero2 then .O
    else .aff (qMul (poly isoXNum x) (qInvTotal xd)) (qMul (qMul y (poly isoYNum x)) (qInvTotal yd))

/-- `map_to_g2(u0, u1)` (R427). -/
def mapToG2 (u0 u1 : Fp2) : Point Fp2 := clear2 (ptAdd opsFp2 (iso (sswu u0)) (iso (sswu u1)))

/-- `hash_to_g2(msg)` under a tag (R428). -/
def hashToG2 (sha : List Byte → List Byte) (msg dst : List Byte) : Point Fp2 :=
  let u := hashToField sha msg dst
  mapToG2 u.1 u.2

end Sys2Proof.Machine
end

