-- ==== Sys2Proof/Machine/Fp6Arith.lean ====
section
/-! DEFINITION. Arithmetic of Fp6, the functions of spec/43_fp6.md R241 to R244. -/

namespace Sys2Proof.Machine

open Sys2Proof

/-- `s_add` (R241). -/
def sAdd (a b : Fp6) : Fp6 := ⟨qAdd a.c0 b.c0, qAdd a.c1 b.c1, qAdd a.c2 b.c2⟩

/-- `s_sub` (R241). -/
def sSub (a b : Fp6) : Fp6 := ⟨qSub a.c0 b.c0, qSub a.c1 b.c1, qSub a.c2 b.c2⟩

/-- `s_neg` (R241). -/
def sNeg (a : Fp6) : Fp6 := ⟨qNeg a.c0, qNeg a.c1, qNeg a.c2⟩

/-- `s_mulnr`, multiplication by `v` (R241). -/
def sMulnr (a : Fp6) : Fp6 := ⟨qMulnr a.c2, a.c0, a.c1⟩

/-- `s_mul` (R242). -/
def sMul (a b : Fp6) : Fp6 :=
  ⟨qAdd (qMul a.c0 b.c0) (qMulnr (qAdd (qMul a.c1 b.c2) (qMul a.c2 b.c1))),
   qAdd (qAdd (qMul a.c0 b.c1) (qMul a.c1 b.c0)) (qMulnr (qMul a.c2 b.c2)),
   qAdd (qAdd (qMul a.c0 b.c2) (qMul a.c1 b.c1)) (qMul a.c2 b.c0)⟩

/-- `s_sqr` (R242). -/
def sSqr (a : Fp6) : Fp6 := sMul a a

/-- The formula of `s_inv` (R243), for a non-zero operand; 0 goes to 0. -/
def sInvTotal (a : Fp6) : Fp6 :=
  let t0 := qSub (qSqr a.c0) (qMulnr (qMul a.c2 a.c1))
  let t1 := qSub (qMulnr (qSqr a.c2)) (qMul a.c0 a.c1)
  let t2 := qSub (qSqr a.c1) (qMul a.c0 a.c2)
  let d := qAdd (qMulnr (qAdd (qMul a.c2 t1) (qMul a.c1 t2))) (qMul a.c0 t0)
  let t4 := qInvTotal d
  ⟨qMul t4 t0, qMul t4 t1, qMul t4 t2⟩

/-- `s_inv`, which raises NoInverse exactly at zero (R243; assumption log 7). -/
def sInv (a : Fp6) : Res Fp6 := if a = zero6 then .error (fails .noInverse) else .ok (sInvTotal a)

/-- `s_div` (R243). -/
def sDiv (a b : Fp6) : Res Fp6 := do
  let i ← sInv b
  .ok (sMul a i)

/-- `s_mul1` (R244). -/
def sMul1 (a : Fp6) (b1 : Fp2) : Fp6 := sMul a ⟨zero2, b1, zero2⟩

/-- `s_mul01` (R244). -/
def sMul01 (a : Fp6) (b0 b1 : Fp2) : Fp6 := sMul a ⟨b0, b1, zero2⟩

/-- `s_pow` (R244). -/
def sPow (a : Fp6) (n : Nat) : Fp6 := powBy sMul one6 a n

/-- `s_frob` (R244). -/
def sFrob (a : Fp6) (k : Nat) : Fp6 :=
  ⟨qFrob a.c0 k, qMul (qFrob a.c1 k) (g6a (k % 6)), qMul (qFrob a.c2 k) (g6b (k % 6))⟩

end Sys2Proof.Machine
end

