-- ==== Sys2Proof/Machine/Fp12Arith.lean ====
section
/-! DEFINITION. Arithmetic of Fp12, the cyclotomic operations and the final exponentiation, the functions of
spec/44_fp12.md R271 to R276. -/

namespace Sys2Proof.Machine

open Sys2Proof

/-- `t_add` (R271). -/
def tAdd (a b : Fp12) : Fp12 := ⟨sAdd a.c0 b.c0, sAdd a.c1 b.c1⟩

/-- `t_sub` (R271). -/
def tSub (a b : Fp12) : Fp12 := ⟨sSub a.c0 b.c0, sSub a.c1 b.c1⟩

/-- `t_neg` (R271). -/
def tNeg (a : Fp12) : Fp12 := ⟨sNeg a.c0, sNeg a.c1⟩

/-- `t_conj` (R271). -/
def tConj (a : Fp12) : Fp12 := ⟨a.c0, sNeg a.c1⟩

/-- `t_mul` (R271). -/
def tMul (a b : Fp12) : Fp12 :=
  ⟨sAdd (sMul a.c0 b.c0) (sMulnr (sMul a.c1 b.c1)), sAdd (sMul a.c0 b.c1) (sMul a.c1 b.c0)⟩

/-- `t_sqr` (R271). -/
def tSqr (a : Fp12) : Fp12 := tMul a a

/-- The formula of `t_inv` (R272), for a non-zero operand; 0 goes to 0. -/
def tInvTotal (a : Fp12) : Fp12 :=
  let t := sInvTotal (sSub (sSqr a.c0) (sMulnr (sSqr a.c1)))
  ⟨sMul a.c0 t, sNeg (sMul a.c1 t)⟩

/-- `t_inv`, which raises NoInverse exactly at zero (R272; assumption log 7). -/
def tInv (a : Fp12) : Res Fp12 := if a = zero12 then .error (fails .noInverse) else .ok (tInvTotal a)

/-- `t_div` (R272). -/
def tDiv (a b : Fp12) : Res Fp12 := do
  let i ← tInv b
  .ok (tMul a i)

/-- `t_pow` (R272). -/
def tPow (a : Fp12) (n : Nat) : Fp12 := powBy tMul one12 a n

/-- An Fp6 value with each coefficient multiplied by `c` (R273). -/
def sScale (a : Fp6) (c : Fp2) : Fp6 := ⟨qMul a.c0 c, qMul a.c1 c, qMul a.c2 c⟩

/-- `t_frob` (R273). -/
def tFrob (a : Fp12) (k : Nat) : Fp12 :=
  ⟨sFrob a.c0 (k % 12), sScale (sFrob a.c1 (k % 12)) (g12 (k % 12))⟩

/-- `t_mul014` (R274). -/
def tMul014 (a : Fp12) (o0 o1 o4 : Fp2) : Fp12 := tMul a ⟨⟨o0, o1, zero2⟩, ⟨zero2, o4, zero2⟩⟩

/-- `fp4sq` (R275). -/
def fp4sq (x y : Fp2) : Fp2 × Fp2 :=
  (qAdd (qMulnr (qSqr y)) (qSqr x), qSub (qSub (qSqr (qAdd x y)) (qSqr x)) (qSqr y))

/-- `2·(t - c) + t` (R275). -/
def cycMinus (t c : Fp2) : Fp2 := qAdd (qAdd (qSub t c) (qSub t c)) t

/-- `2·(t + c) + t` (R275). -/
def cycPlus (t c : Fp2) : Fp2 := qAdd (qAdd (qAdd t c) (qAdd t c)) t

/-- `t_cycsqr` (R275), defined for every Fp12 value. -/
def tCycsqr (a : Fp12) : Fp12 :=
  let t34 := fp4sq a.c0.c0 a.c1.c1
  let t56 := fp4sq a.c1.c0 a.c0.c2
  let t78 := fp4sq a.c0.c1 a.c1.c2
  let t9 := qMulnr t78.2
  ⟨⟨cycMinus t34.1 a.c0.c0, cycMinus t56.1 a.c0.c1, cycMinus t78.1 a.c0.c2⟩,
   ⟨cycPlus t9 a.c1.c0, cycPlus t34.2 a.c1.c1, cycPlus t56.2 a.c1.c2⟩⟩

/-- The loop of `t_cycexp` over bits `i-1` down to 0 (R275). -/
def cycLoop (a : Fp12) (n : Nat) : Nat → Fp12 → Fp12
  | 0, z => z
  | i + 1, z =>
    cycLoop a n i (if n.testBit i then tMul (tCycsqr z) a else tCycsqr z)

/-- `t_cycexp` (R275). -/
def tCycexp (a : Fp12) (n : Nat) : Fp12 := cycLoop a n 256 one12

/-- `t_conj(t_cycexp(a, X_ABS))`, the power by the signed parameter `x` (R276). -/
def cycX (a : Fp12) : Fp12 := tConj (tCycexp a xAbs)

/-- The hard part of `t_finalexp`, from `t1` on (R276). -/
def finalHard (t1 : Fp12) : Fp12 :=
  let t2 := cycX t1
  let t3 := tMul (tConj (tCycsqr t1)) t2
  let t4 := cycX t3
  let t5 := cycX t4
  let t6 := tMul (cycX t5) (tCycsqr t2)
  let t7 := cycX t6
  let a1 := tFrob (tMul t2 t5) 2
  let a2 := tFrob (tMul t4 t1) 3
  let a3 := tFrob (tMul t6 (tConj t1)) 1
  let a4 := tMul (tMul t7 (tConj t3)) t1
  tMul (tMul (tMul a1 a2) a3) a4

/-- `t_finalexp` (R276), which raises NoInverse when the operand is zero. -/
def tFinalexp (a : Fp12) : Res Fp12 := do
  let t0 ← tDiv (tFrob a 6) a
  let t1 := tMul (tFrob t0 2) t0
  .ok (finalHard t1)

end Sys2Proof.Machine
end

