-- ==== Sys2Proof/Machine/Pairing.lean ====
section
/-! DEFINITION. The pairing engine (spec/47_pairing.md R401 to R406). -/

namespace Sys2Proof.Machine

open Sys2Proof

/-- Three Fp2 values: a running point `(Rx, Ry, Rz)` or a line-coefficient triple `(c0, c1, c2)`. -/
abbrev Triple := Fp2 × Fp2 × Fp2

/-- `pair_check` (R401). -/
def pairCheck (p : Point Fp) (q : Point Fp2) : Res Unit :=
  if isO p || isO q then .error (fails .noPairing)
  else if oncurve p = false || insub1 p = false then .error (fails .noPairing)
  else if oncurve2 q = false || insub2 q = false then .error (fails .noPairing)
  else .ok ()

/-- `dbl_step` (R402): the new running point and the emitted triple. -/
def dblStep (r : Triple) : Triple × Triple :=
  let rx := r.1
  let ry := r.2.1
  let rz := r.2.2
  let t0 := qSqr ry
  let t1 := qSqr rz
  let t2 := qMul (mkFp2 12 12) t1
  let t3 := qMulf t2 (toFp 3)
  let t4 := qSub (qSub (qSqr (qAdd ry rz)) t1) t0
  let rx' := qMulf (qMul (qMul (qSub t0 t3) rx) ry) inv2
  let ry' := qSub (qSqr (qMulf (qAdd t0 t3) inv2)) (qMulf (qSqr t2) (toFp 3))
  let rz' := qMul t0 t4
  ((rx', ry', rz'), (qSub t2 t0, qMulf (qSqr rx) (toFp 3), qNeg t4))

/-- `add_step` (R403): the new running point and the emitted triple. -/
def addStep (r : Triple) (qx qy : Fp2) : Triple × Triple :=
  let rx := r.1
  let ry := r.2.1
  let rz := r.2.2
  let t0 := qSub ry (qMul qy rz)
  let t1 := qSub rx (qMul qx rz)
  let t2 := qSqr t1
  let t3 := qMul t2 t1
  let t4 := qMul t2 rx
  let t5 := qAdd (qSub t3 (qMulf t4 (toFp 2))) (qMul (qSqr t0) rz)
  let rx' := qMul t1 t5
  let ry' := qSub (qMul (qSub t4 t5) t0) (qMul t3 ry)
  let rz' := qMul rz t3
  ((rx', ry', rz'), (qSub (qMul t0 qx) (qMul t1 qy), qNeg t0, t1))

/-- `line_coeffs` from bit `i-1` of `X_ABS` down to bit 0 (R404). -/
def lineLoop (qx qy : Fp2) : Nat → Triple → List Triple
  | 0, _ => []
  | i + 1, r =>
    let d := dblStep r
    if xAbs.testBit i then
      let a := addStep d.1 qx qy
      d.2 :: a.2 :: lineLoop qx qy i a.1
    else d.2 :: lineLoop qx qy i d.1

/-- `line_coeffs(Q)` for `Q = (Qx, Qy)`: bits 62 down to 0 (R404). -/
def lineCoeffs (qx qy : Fp2) : List Triple := lineLoop qx qy 63 (qx, qy, one2)

/-- One line applied to the accumulator (R404). -/
def applyLine (px py : Fp) (f : Fp12) (c : Triple) : Fp12 :=
  tMul014 f c.1 (qMulf c.2.1 px) (qMulf c.2.2 py)

/-- The Miller loop from bit `i-1` down to bit 0, with the triples not yet used (R404). The list `line_coeffs`
builds never runs out. -/
def millerLoop (px py : Fp) : Nat → List Triple → Fp12 → Fp12
  | 0, _, f => f
  | i + 1, ell, f =>
    let f1 := applyLine px py f (ell.headD (zero2, zero2, zero2))
    let ell1 := ell.tail
    let set := xAbs.testBit i
    let f2 := if set then applyLine px py f1 (ell1.headD (zero2, zero2, zero2)) else f1
    let ell2 := if set then ell1.tail else ell1
    millerLoop px py i ell2 (if i = 0 then f2 else tSqr f2)

/-- `miller(P, Q)` on affine operands (R404). -/
def millerAff (px py : Fp) (qx qy : Fp2) : Fp12 :=
  tConj (millerLoop px py 63 (lineCoeffs qx qy) one12)

/-- `pair_ml(P, Q)` (R405); the identity operands are those `pairCheck` has refused. -/
def pairMl (p : Point Fp) (q : Point Fp2) : Res Fp12 :=
  match pairCheck p q with
  | .error e => .error e
  | .ok _ =>
    match p, q with
    | .aff px py, .aff qx qy => .ok (millerAff px py qx qy)
    | _, _ => .error (fails .noPairing)

/-- `e(P, Q)` (R405). -/
def pairFull (p : Point Fp) (q : Point Fp2) : Res Fp12 := do
  let m ← pairMl p q
  tFinalexp m

end Sys2Proof.Machine
end

