-- ==== Sys2Proof/Machine/Bls.lean ====
section
/-! DEFINITION. The functions of the BLS operations (spec/49_bls.md R451 to R453). -/

namespace Sys2Proof.Machine

open Sys2Proof

/-- Whether a private key is in range, `0 < s <= r` (R454, R159). -/
def keyInRange (s : Nat) : Bool := 0 < s && s ≤ orderR

/-- `core_verify(pk, sig, M)` (R451). -/
def coreVerify (pk : Point Fp) (sig m : Point Fp2) : Res Bool := do
  let a ← pairMl (ptNeg opsFp pk) m
  let b ← pairMl gen1 sig
  let e ← tFinalexp (tMul a b)
  .ok (decide (e = one12))

/-- The sum of the public keys whose message point is `m` (R452). -/
def groupSum (pks : List (Point Fp)) (ms : List (Point Fp2)) (m : Point Fp2) : Point Fp :=
  (pks.zip ms).foldl (fun acc x => if x.2 = m then ptAdd opsFp acc x.1 else acc) .O

/-- The loop of `batch_verify` over the message points not yet visited; `seen` holds those before (R452). -/
def batchLoop (pks : List (Point Fp)) (ms : List (Point Fp2)) :
    List (Point Fp2) → List (Point Fp2) → Fp12 → Res Fp12
  | _, [], acc => .ok acc
  | seen, m :: rest, acc =>
    if m ∈ seen then batchLoop pks ms (m :: seen) rest acc
    else
      match pairMl (groupSum pks ms m) m with
      | .error e => .error e
      | .ok f => batchLoop pks ms (m :: seen) rest (tMul acc f)

/-- `batch_verify(pks, Ms, asig)` (R452). -/
def batchVerify (pks : List (Point Fp)) (ms : List (Point Fp2)) (asig : Point Fp2) : Res Bool := do
  let acc ← batchLoop pks ms [] ms one12
  let f ← pairMl (ptNeg opsFp gen1) asig
  let e ← tFinalexp (tMul acc f)
  .ok (decide (e = one12))

/-- The collapse of R453: an exception with a code of at least 0x20 becomes false. -/
def collapse (v : Res Bool) : Res Bool :=
  match v with
  | .ok b => .ok b
  | .error e => if 0x20 ≤ causeCode e.cause then .ok false else .error e

/-- The sum of a list of points, from the first on (R459, R460). -/
def pointSum {F : Type} [DecidableEq F] (ops : FieldOps F) (l : List (Point F)) : Point F :=
  l.foldl (ptAdd ops) .O

end Sys2Proof.Machine
end

