-- ==== Sys2Proof/Machine/Operands.lean ====
section
/-! DEFINITION. How operands are assembled (spec/30_encoding.md R104, R105; spec/20_memory.md R85). -/

namespace Sys2Proof.Machine

open Sys2Proof

/-- `u16`: `zext_32(imm16)`. -/
def immU (imm : BitVec 16) : Word := imm.setWidth 32

/-- `s16`: `sext_32(imm16)`. -/
def immS (imm : BitVec 16) : Word := imm.signExtend 32

/-- `imm16 · 2^16` (`LUI`). -/
def immHigh (imm : BitVec 16) : Word := immU imm <<< 16

/-- `zext_256(imm16)` (`K.LI`). -/
def immScalar (imm : BitVec 16) : Scalar := imm.setWidth 256

/-- `off(rB)`: `(r[b] + sext_32(imm16)) mod 2^32` (R85). -/
def effAddr (s : State) (b : RegIdx) (imm : BitVec 16) : Word := readR s b + immS imm

/-- `rel`: `(pc + sext_32(imm16)) mod 2^32` (R105, R132). -/
def relTarget (s : State) (imm : BitVec 16) : Word := s.pc + immS imm

/-- The `n` consecutive registers of a file from register `b`, or RegRange when the run passes register 15
(R104, R473); the count is a full 32-bit value and the sum is not wrapped. -/
def regRun {α : Type} (file : RegFile α) (b : RegIdx) (n : Nat) : Res (List α) :=
  if 16 < b.val + n then .error (fails .regRange) else .ok ((file.toList.drop b.val).take n)

end Sys2Proof.Machine
end

