-- ==== Sys2Proof/Machine/Sha256.lean ====
section
/-! DEFINITION. The function `SHA256` of spec/00_scope.md R27. It is an open parameter whose default is FIPS 180-4
SHA-256 (spec/92_eei_decisions.md, open parameters); every function that hashes takes it as an argument
(Machine/HashToCurve.lean), and the meanings pass the one defined here. The algorithm itself is not in spec/:
PRESUMED, unsafe, assumption log 3. Its constants are computed from what defines them, the roots of the first
primes, and no table is kept. -/

namespace Sys2Proof.Machine

open Sys2Proof

/-- Whether `n` is prime, for `n` below 19²: the divisors to try are at most 18. -/
def smallPrime (n : Nat) : Bool := 2 ≤ n && (List.range 17).all fun i => n ≤ i + 2 || n % (i + 2) ≠ 0

/-- The first `count` primes (`count` at most 64: the 64th prime is 311). -/
def firstPrimes (count : Nat) : List Nat := ((List.range 312).filter smallPrime).take count

/-- `r` with each of its lowest `bits` bits set, the highest first, that keeps `r ^ k` at most `n`: from `r = 0`
the integer part of the `k`-th root of `n`, if it has no more bits. -/
def rootFrom (k n : Nat) : Nat → Nat → Nat
  | 0, r => r
  | bits + 1, r => rootFrom k n bits (if (r + 2 ^ bits) ^ k ≤ n then r + 2 ^ bits else r)

/-- The first 32 bits of the fractional part of the `k`-th root of `n`, a root below 8. -/
def rootFraction (k n : Nat) : Word := BitVec.ofNat 32 (rootFrom k (n * 2 ^ (32 * k)) 35 0)

/-- The chaining value before the first block: the square roots of the first 8 primes. -/
def shaStart : List Word := (firstPrimes 8).map (rootFraction 2)

/-- One constant for each round: the cube roots of the first 64 primes. -/
def roundConstants : List Word := (firstPrimes 64).map (rootFraction 3)

/-- `x` turned right by each of `turns`, the results and `acc` added without carry. -/
def stir (turns : List Nat) (acc x : Word) : Word := turns.foldl (fun y n => y ^^^ x.rotateRight n) acc

/-- Each bit of `yes` or of `no`, as the bit of `sel` is 1 or 0. -/
def bitSelect (sel yes no : Word) : Word := no ^^^ (sel &&& (yes ^^^ no))

/-- The message schedule, newest word first: `n` words more than `ws`. -/
def schedule (n : Nat) (ws : List Word) : List Word :=
  match n with
  | 0 => ws
  | n + 1 =>
    let wordBack := fun back => ws.getD (back - 1) 0
    let word := wordBack 16 + wordBack 7 +
      stir [7, 18] (wordBack 15 >>> 3) (wordBack 15) + stir [17, 19] (wordBack 2 >>> 10) (wordBack 2)
    schedule n (word :: ws)

/-- One round on the eight working words, the round's constant and schedule word added up in `kw`. -/
def roundStep (v : List Word) (kw : Word) : List Word :=
  let top := v.take 4
  let low := v.drop 4
  let x := top.getD 0 0
  let y := low.getD 0 0
  let carry := kw + low.getD 3 0 + bitSelect y (low.getD 1 0) (low.getD 2 0) + stir [6, 11, 25] 0 y
  let vote := bitSelect (x ^^^ top.getD 1 0) (top.getD 2 0) x
  ((carry + vote + stir [2, 13, 22] 0 x) :: top.take 3) ++ ((top.getD 3 0 + carry) :: low.take 3)

/-- The 16 words of a block of 64 bytes, big-endian. -/
def blockWords (block : List Byte) : List Word :=
  (List.range 16).map fun i => BitVec.ofNat 32 (os2ip ((block.drop (4 * i)).take 4))

/-- The chaining value after one block. -/
def shaCompress (chain : List Word) (block : List Byte) : List Word :=
  let ws := (schedule 48 (blockWords block).reverse).reverse
  List.zipWith (· + ·) chain ((List.zipWith (· + ·) roundConstants ws).foldl roundStep chain)

/-- The message closed by a one bit, as many zero bits as fill the last block, and its length in bits in 8 bytes. -/
def shaPad (m : List Byte) : List Byte :=
  m ++ 0x80 :: List.replicate ((119 - m.length % 64) % 64) 0 ++ i2osp (8 * m.length) 8

/-- SHA-256 (FIPS 180-4): 32 bytes. -/
def sha256 (m : List Byte) : List Byte :=
  let padded := shaPad m
  let digest := (List.range (padded.length / 64)).foldl
    (fun chain i => shaCompress chain ((padded.drop (64 * i)).take 64)) shaStart
  digest.flatMap fun w => i2osp w.toNat 4

end Sys2Proof.Machine
end

