-- ==== Sys2Proof/Machine/BlsInstr.lean ====
section
/-! DEFINITION. The meanings of the BLS instructions (spec/49_bls.md R454 to R461): one definition per
instruction. -/

namespace Sys2Proof.Machine

open Sys2Proof

/-- `BLS.PK g[a], k[b]` (R454). -/
def execBlsPk (a b : RegIdx) (s : State) : Out :=
  retire s
    (if keyInRange (readK s b).toNat = false then .error (fails .scalarOutOfRange)
    else .ok (writeG s a (mul1 gen1 (readK s b).toNat)))

/-- `BLS.SIGN h[a], h[b], k[c], r[d], r[e]` (R455). The signature is written second. -/
def execBlsSign (a b c d e : RegIdx) (s : State) : Out :=
  retire s
    (if keyInRange (readK s c).toNat = false then .error (fails .scalarOutOfRange)
    else do
      let bytes ← memRead s (readR s d) (readR s e).toNat
      let m := hashToG2 sha256 bytes s.dstBuf
      .ok (writeH (writeH s b m) a (mul2 m (readK s c).toNat)))

/-- `BLS.SIGNP h[a], k[b], h[c]` (R456). -/
def execBlsSignp (a b c : RegIdx) (s : State) : Out :=
  retire s
    (if keyInRange (readK s b).toNat = false then .error (fails .scalarOutOfRange)
    else .ok (writeH s a (mul2 (readH s c) (readK s b).toNat)))

/-- `BLS.VERIFY r[a], g[b], h[c], h[d]` (R457). -/
def execBlsVerify (a b c d : RegIdx) (s : State) : Out :=
  retire s do
    let v ← collapse (coreVerify (readG s b) (readH s c) (readH s d))
    .ok (writeR s a (boolWord v))

/-- `BLS.VERIFYB r[a], g[b], h[c], r[d], r[e]` (R458). -/
def execBlsVerifyb (a b c d e : RegIdx) (s : State) : Out :=
  retire s do
    let msg ← memRead s (readR s d) (readR s e).toNat
    let v ← collapse (coreVerify (readG s b) (readH s c) (hashToG2 sha256 msg s.dstBuf))
    .ok (writeR s a (boolWord v))

/-- `BLS.AGGPK g[a], g[b], r[c]` (R459). -/
def execBlsAggpk (a b c : RegIdx) (s : State) : Out :=
  retire s
    (if readR s c = 0 then .error (fails .emptyList)
    else do
      let pts ← regRun s.g b (readR s c).toNat
      .ok (writeG s a (pointSum opsFp pts)))

/-- `BLS.AGGSIG h[a], h[b], r[c]` (R460). -/
def execBlsAggsig (a b c : RegIdx) (s : State) : Out :=
  retire s
    (if readR s c = 0 then .error (fails .emptyList)
    else do
      let pts ← regRun s.h b (readR s c).toNat
      .ok (writeH s a (pointSum opsFp2 pts)))

/-- `BLS.VERIFYN r[a], g[b], h[c], r[d], r[e], h[n]` (R461). -/
def execBlsVerifyn (a b c d e n : RegIdx) (s : State) : Out :=
  retire s
    (if readR s e = 0 then .error (fails .emptyList)
    else if readR s d ≠ readR s e then .error (fails .lengthMismatch)
    else do
      let pks ← regRun s.g b (readR s d).toNat
      let ms ← regRun s.h c (readR s e).toNat
      let v ← collapse (batchVerify pks ms (readH s n))
      .ok (writeR s a (boolWord v)))

end Sys2Proof.Machine
end

