-- ==== Sys2Proof/Machine/Control.lean ====
section
/-! DEFINITION. The meanings of the control instructions (spec/40_control_integer_scalar.md R134 to R141): one
definition per instruction. -/

namespace Sys2Proof.Machine

open Sys2Proof

/-- `HALT` (R134). `pc` stays at the `HALT`. -/
def execHalt (s : State) : Out := .next (haltRun s)

/-- `NOP` (R135). -/
def execNop (s : State) : Out := retire s (.ok s)

/-- `FAIL imm16` (R136). -/
def execFail (imm : BitVec 16) (s : State) : Out := retire s (.error ⟨.softwareFail, immU imm⟩)

/-- `JAL r[a], label` (R137). -/
def execJal (a : RegIdx) (imm : BitVec 16) (s : State) : Out :=
  .next (setPc (writeR s a (s.pc + 1)) (relTarget s imm))

/-- `JALR r[a], r[b]` (R138). The target is read before the link is written. -/
def execJalr (a b : RegIdx) (s : State) : Out := .next (setPc (writeR s a (s.pc + 1)) (readR s b))

/-- `BEQ r[a], r[b], label` (R139). -/
def execBeq (a b : RegIdx) (imm : BitVec 16) (s : State) : Out :=
  .next (setPc s (if readR s a = readR s b then relTarget s imm else s.pc + 1))

/-- `BNE r[a], r[b], label` (R140). -/
def execBne (a b : RegIdx) (imm : BitVec 16) (s : State) : Out :=
  .next (setPc s (if readR s a ≠ readR s b then relTarget s imm else s.pc + 1))

/-- `BLTU r[a], r[b], label` (R141). -/
def execBltu (a b : RegIdx) (imm : BitVec 16) (s : State) : Out :=
  .next (setPc s (if (readR s a).toNat < (readR s b).toNat then relTarget s imm else s.pc + 1))

end Sys2Proof.Machine
end

