-- ==== Sys2Proof/Syntax.lean ====
section
/-! DEFINITION. The instructions of BCISA 1.0: one constructor per row of spec/opcode_table.json, in the order
of the opcode map of spec/30_encoding.md R112. Arguments are the fields of R101 and R102 in the order
`a b c d e n`, then `imm16`; a `RegIdx` names a register of the file the docstring gives, a 4-bit `n` is an
immediate (R105). -/

namespace Sys2Proof

inductive Instr where
  -- Control (R134 to R141)
  /-- `HALT`, opcode 0x01 (R134). -/
  | halt
  /-- `NOP`, opcode 0x02 (R135). -/
  | nop
  /-- `FAIL imm16`, opcode 0x03 (R136). -/
  | fail (imm : BitVec 16)
  /-- `JAL r[a], label`, opcode 0x04 (R137). -/
  | jal (a : RegIdx) (imm : BitVec 16)
  /-- `JALR r[a], r[b]`, opcode 0x05 (R138). -/
  | jalr (a b : RegIdx)
  /-- `BEQ r[a], r[b], label`, opcode 0x06 (R139). -/
  | beq (a b : RegIdx) (imm : BitVec 16)
  /-- `BNE r[a], r[b], label`, opcode 0x07 (R140). -/
  | bne (a b : RegIdx) (imm : BitVec 16)
  /-- `BLTU r[a], r[b], label`, opcode 0x08 (R141). -/
  | bltu (a b : RegIdx) (imm : BitVec 16)
  -- Integer (R142 to R153)
  /-- `LI r[a], imm16`, opcode 0x10 (R142). -/
  | li (a : RegIdx) (imm : BitVec 16)
  /-- `LUI r[a], imm16`, opcode 0x11 (R143). -/
  | lui (a : RegIdx) (imm : BitVec 16)
  /-- `ADDI r[a], r[b], imm16`, opcode 0x12 (R144). -/
  | addi (a b : RegIdx) (imm : BitVec 16)
  /-- `ADD r[a], r[b], r[c]`, opcode 0x13 (R145). -/
  | add (a b c : RegIdx)
  /-- `SUB r[a], r[b], r[c]`, opcode 0x14 (R146). -/
  | sub (a b c : RegIdx)
  /-- `AND r[a], r[b], r[c]`, opcode 0x15 (R147). -/
  | and (a b c : RegIdx)
  /-- `OR r[a], r[b], r[c]`, opcode 0x16 (R148). -/
  | or (a b c : RegIdx)
  /-- `XOR r[a], r[b], r[c]`, opcode 0x17 (R149). -/
  | xor (a b c : RegIdx)
  /-- `LW r[a], imm16(r[b])`, opcode 0x18 (R150). -/
  | lw (a b : RegIdx) (imm : BitVec 16)
  /-- `SW r[a], imm16(r[b])`, opcode 0x19 (R151). -/
  | sw (a b : RegIdx) (imm : BitVec 16)
  /-- `LBU r[a], imm16(r[b])`, opcode 0x1A (R152). -/
  | lbu (a b : RegIdx) (imm : BitVec 16)
  /-- `SB r[a], imm16(r[b])`, opcode 0x1B (R153). -/
  | sb (a b : RegIdx) (imm : BitVec 16)
  -- Fp (R185 to R199)
  /-- `F.MOV f[a], f[b]`, opcode 0x20 (R185). -/
  | fMov (a b : RegIdx)
  /-- `F.LI f[a], imm16`, opcode 0x21 (R186). -/
  | fLi (a : RegIdx) (imm : BitVec 16)
  /-- `F.LD f[a], imm16(r[b])`, opcode 0x22 (R187). -/
  | fLd (a b : RegIdx) (imm : BitVec 16)
  /-- `F.ST f[a], imm16(r[b])`, opcode 0x23 (R188). -/
  | fSt (a b : RegIdx) (imm : BitVec 16)
  /-- `F.LDR f[a], r[b], r[c]`, opcode 0x24 (R189). -/
  | fLdr (a b c : RegIdx)
  /-- `F.ADD f[a], f[b], f[c]`, opcode 0x25 (R190). -/
  | fAdd (a b c : RegIdx)
  /-- `F.SUB f[a], f[b], f[c]`, opcode 0x26 (R191). -/
  | fSub (a b c : RegIdx)
  /-- `F.NEG f[a], f[b]`, opcode 0x27 (R192). -/
  | fNeg (a b : RegIdx)
  /-- `F.MUL f[a], f[b], f[c]`, opcode 0x28 (R193). -/
  | fMul (a b c : RegIdx)
  /-- `F.SQR f[a], f[b]`, opcode 0x29 (R194). -/
  | fSqr (a b : RegIdx)
  /-- `F.INV f[a], f[b]`, opcode 0x2A (R195). -/
  | fInv (a b : RegIdx)
  /-- `F.DIV f[a], f[b], f[c]`, opcode 0x2B (R196). -/
  | fDiv (a b c : RegIdx)
  /-- `F.POW f[a], f[b], k[c]`, opcode 0x2C (R197). -/
  | fPow (a b c : RegIdx)
  /-- `F.SQRT f[a], f[b], r[c]`, opcode 0x2D (R198). -/
  | fSqrt (a b c : RegIdx)
  /-- `F.EQ r[a], f[b], f[c]`, opcode 0x2E (R199). -/
  | fEq (a b c : RegIdx)
  -- Fp2 (R215 to R230)
  /-- `Q.MOV q[a], q[b]`, opcode 0x30 (R215). -/
  | qMov (a b : RegIdx)
  /-- `Q.PACK q[a], f[b], f[c]`, opcode 0x31 (R216). -/
  | qPack (a b c : RegIdx)
  /-- `Q.GET f[a], q[b], n`, opcode 0x32 (R217). -/
  | qGet (a b : RegIdx) (n : BitVec 4)
  /-- `Q.FROB q[a], q[b], n`, opcode 0x33 (R218). -/
  | qFrob (a b : RegIdx) (n : BitVec 4)
  /-- `Q.SGN0 r[a], q[b]`, opcode 0x34 (R219). -/
  | qSgn0 (a b : RegIdx)
  /-- `Q.ADD q[a], q[b], q[c]`, opcode 0x35 (R220). -/
  | qAdd (a b c : RegIdx)
  /-- `Q.SUB q[a], q[b], q[c]`, opcode 0x36 (R221). -/
  | qSub (a b c : RegIdx)
  /-- `Q.NEG q[a], q[b]`, opcode 0x37 (R222). -/
  | qNeg (a b : RegIdx)
  /-- `Q.MUL q[a], q[b], q[c]`, opcode 0x38 (R223). -/
  | qMul (a b c : RegIdx)
  /-- `Q.SQR q[a], q[b]`, opcode 0x39 (R224). -/
  | qSqr (a b : RegIdx)
  /-- `Q.INV q[a], q[b]`, opcode 0x3A (R225). -/
  | qInv (a b : RegIdx)
  /-- `Q.DIV q[a], q[b], q[c]`, opcode 0x3B (R226). -/
  | qDiv (a b c : RegIdx)
  /-- `Q.POW q[a], q[b], k[c]`, opcode 0x3C (R227). -/
  | qPow (a b c : RegIdx)
  /-- `Q.SQRT q[a], q[b]`, opcode 0x3D (R228). -/
  | qSqrt (a b : RegIdx)
  /-- `Q.EQ r[a], q[b], q[c]`, opcode 0x3E (R229). -/
  | qEq (a b c : RegIdx)
  /-- `Q.MULNR q[a], q[b]`, opcode 0x3F (R230). -/
  | qMulnr (a b : RegIdx)
  -- Fp6 (R245 to R259)
  /-- `S.MOV s[a], s[b]`, opcode 0x40 (R245). -/
  | sMov (a b : RegIdx)
  /-- `S.PACK s[a], q[b], q[c], q[d]`, opcode 0x41 (R246). -/
  | sPack (a b c d : RegIdx)
  /-- `S.GET q[a], s[b], n`, opcode 0x42 (R247). -/
  | sGet (a b : RegIdx) (n : BitVec 4)
  /-- `S.MUL1 s[a], s[b], q[c]`, opcode 0x43 (R248). -/
  | sMul1 (a b c : RegIdx)
  /-- `S.MUL01 s[a], s[b], q[c], q[d]`, opcode 0x44 (R249). -/
  | sMul01 (a b c d : RegIdx)
  /-- `S.ADD s[a], s[b], s[c]`, opcode 0x45 (R250). -/
  | sAdd (a b c : RegIdx)
  /-- `S.SUB s[a], s[b], s[c]`, opcode 0x46 (R251). -/
  | sSub (a b c : RegIdx)
  /-- `S.NEG s[a], s[b]`, opcode 0x47 (R252). -/
  | sNeg (a b : RegIdx)
  /-- `S.MUL s[a], s[b], s[c]`, opcode 0x48 (R253). -/
  | sMul (a b c : RegIdx)
  /-- `S.SQR s[a], s[b]`, opcode 0x49 (R254). -/
  | sSqr (a b : RegIdx)
  /-- `S.INV s[a], s[b]`, opcode 0x4A (R255). -/
  | sInv (a b : RegIdx)
  /-- `S.DIV s[a], s[b], s[c]`, opcode 0x4B (R256). -/
  | sDiv (a b c : RegIdx)
  /-- `S.POW s[a], s[b], k[c]`, opcode 0x4C (R257). -/
  | sPow (a b c : RegIdx)
  /-- `S.EQ r[a], s[b], s[c]`, opcode 0x4E (R258). -/
  | sEq (a b c : RegIdx)
  /-- `S.MULNR s[a], s[b]`, opcode 0x4F (R259). -/
  | sMulnr (a b : RegIdx)
  -- Fp12 (R277 to R291)
  /-- `T.MOV t[a], t[b]`, opcode 0x50 (R277). -/
  | tMov (a b : RegIdx)
  /-- `T.PACK t[a], s[b], s[c]`, opcode 0x51 (R278). -/
  | tPack (a b c : RegIdx)
  /-- `T.GET s[a], t[b], n`, opcode 0x52 (R279). -/
  | tGet (a b : RegIdx) (n : BitVec 4)
  /-- `T.FROB t[a], t[b], n`, opcode 0x53 (R280). -/
  | tFrob (a b : RegIdx) (n : BitVec 4)
  /-- `T.CONJ t[a], t[b]`, opcode 0x54 (R281). -/
  | tConj (a b : RegIdx)
  /-- `T.ADD t[a], t[b], t[c]`, opcode 0x55 (R282). -/
  | tAdd (a b c : RegIdx)
  /-- `T.SUB t[a], t[b], t[c]`, opcode 0x56 (R283). -/
  | tSub (a b c : RegIdx)
  /-- `T.NEG t[a], t[b]`, opcode 0x57 (R284). -/
  | tNeg (a b : RegIdx)
  /-- `T.MUL t[a], t[b], t[c]`, opcode 0x58 (R285). -/
  | tMul (a b c : RegIdx)
  /-- `T.SQR t[a], t[b]`, opcode 0x59 (R286). -/
  | tSqr (a b : RegIdx)
  /-- `T.INV t[a], t[b]`, opcode 0x5A (R287). -/
  | tInv (a b : RegIdx)
  /-- `T.DIV t[a], t[b], t[c]`, opcode 0x5B (R288). -/
  | tDiv (a b c : RegIdx)
  /-- `T.POW t[a], t[b], k[c]`, opcode 0x5C (R289). -/
  | tPow (a b c : RegIdx)
  /-- `T.MUL014 t[a], t[b], q[c], q[d], q[e]`, opcode 0x5D (R290). -/
  | tMul014 (a b c d e : RegIdx)
  /-- `T.EQ r[a], t[b], t[c]`, opcode 0x5E (R291). -/
  | tEq (a b c : RegIdx)
  -- G1 points (R316 to R334)
  /-- `G1.MOV g[a], g[b]`, opcode 0x60 (R316). -/
  | g1Mov (a b : RegIdx)
  /-- `G1.PACK g[a], f[b], f[c], f[d]`, opcode 0x61 (R317). -/
  | g1Pack (a b c d : RegIdx)
  /-- `G1.GETAFF f[a], f[b], g[c]`, opcode 0x62 (R318). -/
  | g1Getaff (a b c : RegIdx)
  /-- `G1.ID g[a]`, opcode 0x63 (R319). -/
  | g1Id (a : RegIdx)
  /-- `G1.GEN g[a]`, opcode 0x64 (R320). -/
  | g1Gen (a : RegIdx)
  /-- `G1.ADD g[a], g[b], g[c]`, opcode 0x65 (R321). -/
  | g1Add (a b c : RegIdx)
  /-- `G1.SUB g[a], g[b], g[c]`, opcode 0x66 (R322). -/
  | g1Sub (a b c : RegIdx)
  /-- `G1.NEG g[a], g[b]`, opcode 0x67 (R323). -/
  | g1Neg (a b : RegIdx)
  /-- `G1.DBL g[a], g[b]`, opcode 0x68 (R324). -/
  | g1Dbl (a b : RegIdx)
  /-- `G1.MUL g[a], g[b], k[c]`, opcode 0x69 (R325). -/
  | g1Mul (a b c : RegIdx)
  /-- `G1.MULU g[a], g[b], k[c]`, opcode 0x6A (R326). -/
  | g1Mulu (a b c : RegIdx)
  /-- `G1.MULMX g[a], g[b]`, opcode 0x6B (R327). -/
  | g1Mulmx (a b : RegIdx)
  /-- `G1.EQ r[a], g[b], g[c]`, opcode 0x6C (R328). -/
  | g1Eq (a b c : RegIdx)
  /-- `G1.ISID r[a], g[b]`, opcode 0x6D, n = 0 (R329). -/
  | g1Isid (a b : RegIdx)
  /-- `G1.ONCURVE r[a], g[b]`, opcode 0x6D, n = 1 (R330). -/
  | g1Oncurve (a b : RegIdx)
  /-- `G1.INSUB r[a], g[b]`, opcode 0x6D, n = 2 (R331). -/
  | g1Insub (a b : RegIdx)
  /-- `G1.VALID r[a], g[b]`, opcode 0x6D, n = 3 (R332). -/
  | g1Valid (a b : RegIdx)
  /-- `G1.CLRCOF g[a], g[b]`, opcode 0x6E (R333). -/
  | g1Clrcof (a b : RegIdx)
  /-- `G1.PHI g[a], g[b]`, opcode 0x6F, n = 0 (R334). -/
  | g1Phi (a b : RegIdx)
  -- G2 points (R358 to R377)
  /-- `G2.MOV h[a], h[b]`, opcode 0x70 (R358). -/
  | g2Mov (a b : RegIdx)
  /-- `G2.PACK h[a], q[b], q[c], q[d]`, opcode 0x71 (R359). -/
  | g2Pack (a b c d : RegIdx)
  /-- `G2.GETAFF q[a], q[b], h[c]`, opcode 0x72 (R360). -/
  | g2Getaff (a b c : RegIdx)
  /-- `G2.ID h[a]`, opcode 0x73 (R361). -/
  | g2Id (a : RegIdx)
  /-- `G2.GEN h[a]`, opcode 0x74 (R362). -/
  | g2Gen (a : RegIdx)
  /-- `G2.ADD h[a], h[b], h[c]`, opcode 0x75 (R363). -/
  | g2Add (a b c : RegIdx)
  /-- `G2.SUB h[a], h[b], h[c]`, opcode 0x76 (R364). -/
  | g2Sub (a b c : RegIdx)
  /-- `G2.NEG h[a], h[b]`, opcode 0x77 (R365). -/
  | g2Neg (a b : RegIdx)
  /-- `G2.DBL h[a], h[b]`, opcode 0x78 (R366). -/
  | g2Dbl (a b : RegIdx)
  /-- `G2.MUL h[a], h[b], k[c]`, opcode 0x79 (R367). -/
  | g2Mul (a b c : RegIdx)
  /-- `G2.MULU h[a], h[b], k[c]`, opcode 0x7A (R368). -/
  | g2Mulu (a b c : RegIdx)
  /-- `G2.MULMX h[a], h[b]`, opcode 0x7B (R369). -/
  | g2Mulmx (a b : RegIdx)
  /-- `G2.EQ r[a], h[b], h[c]`, opcode 0x7C (R370). -/
  | g2Eq (a b c : RegIdx)
  /-- `G2.ISID r[a], h[b]`, opcode 0x7D, n = 0 (R371). -/
  | g2Isid (a b : RegIdx)
  /-- `G2.ONCURVE r[a], h[b]`, opcode 0x7D, n = 1 (R372). -/
  | g2Oncurve (a b : RegIdx)
  /-- `G2.INSUB r[a], h[b]`, opcode 0x7D, n = 2 (R373). -/
  | g2Insub (a b : RegIdx)
  /-- `G2.VALID r[a], h[b]`, opcode 0x7D, n = 3 (R374). -/
  | g2Valid (a b : RegIdx)
  /-- `G2.CLRCOF h[a], h[b]`, opcode 0x7E (R375). -/
  | g2Clrcof (a b : RegIdx)
  /-- `G2.PSI h[a], h[b]`, opcode 0x7F, n = 0 (R376). -/
  | g2Psi (a b : RegIdx)
  /-- `G2.PSI2 h[a], h[b]`, opcode 0x7F, n = 1 (R377). -/
  | g2Psi2 (a b : RegIdx)
  -- Cyclotomic and pairing (R292 to R294, R407, R408)
  /-- `T.CYCSQR t[a], t[b]`, opcode 0x80 (R292). -/
  | tCycsqr (a b : RegIdx)
  /-- `T.CYCEXP t[a], t[b], k[c]`, opcode 0x81 (R293). -/
  | tCycexp (a b c : RegIdx)
  /-- `T.FINALEXP t[a], t[b]`, opcode 0x82 (R294). -/
  | tFinalexp (a b : RegIdx)
  /-- `PAIR.ML t[a], g[b], h[c]`, opcode 0x83 (R407). -/
  | pairMl (a b c : RegIdx)
  /-- `PAIR t[a], g[b], h[c]`, opcode 0x84 (R408). -/
  | pair (a b c : RegIdx)
  -- Hash to curve (R430 to R436)
  /-- `H2C.DST r[b], r[c]`, opcode 0x90 (R430). -/
  | h2cDst (b c : RegIdx)
  /-- `H2C.XMD r[a], r[b], r[c], r[d]`, opcode 0x91 (R431). -/
  | h2cXmd (a b c d : RegIdx)
  /-- `H2C.H2F q[a], q[b], r[c], r[d]`, opcode 0x92 (R432). -/
  | h2cH2f (a b c d : RegIdx)
  /-- `H2C.SWU h[a], q[b]`, opcode 0x93 (R433). -/
  | h2cSwu (a b : RegIdx)
  /-- `H2C.ISO h[a], h[b]`, opcode 0x94 (R434). -/
  | h2cIso (a b : RegIdx)
  /-- `H2C.MAP h[a], q[b], q[c]`, opcode 0x95 (R435). -/
  | h2cMap (a b c : RegIdx)
  /-- `H2C.HASH h[a], r[b], r[c]`, opcode 0x96 (R436). -/
  | h2cHash (a b c : RegIdx)
  -- BLS (R454 to R461)
  /-- `BLS.PK g[a], k[b]`, opcode 0xA0 (R454). -/
  | blsPk (a b : RegIdx)
  /-- `BLS.SIGN h[a], h[b], k[c], r[d], r[e]`, opcode 0xA1 (R455). -/
  | blsSign (a b c d e : RegIdx)
  /-- `BLS.SIGNP h[a], k[b], h[c]`, opcode 0xA2 (R456). -/
  | blsSignp (a b c : RegIdx)
  /-- `BLS.VERIFY r[a], g[b], h[c], h[d]`, opcode 0xA3 (R457). -/
  | blsVerify (a b c d : RegIdx)
  /-- `BLS.VERIFYB r[a], g[b], h[c], r[d], r[e]`, opcode 0xA4 (R458). -/
  | blsVerifyb (a b c d e : RegIdx)
  /-- `BLS.AGGPK g[a], g[b], r[c]`, opcode 0xA5 (R459). -/
  | blsAggpk (a b c : RegIdx)
  /-- `BLS.AGGSIG h[a], h[b], r[c]`, opcode 0xA6 (R460). -/
  | blsAggsig (a b c : RegIdx)
  /-- `BLS.VERIFYN r[a], g[b], h[c], r[d], r[e], h[n]`, opcode 0xA7 (R461). -/
  | blsVerifyn (a b c d e n : RegIdx)
  -- Scalar registers (R154 to R159)
  /-- `K.MOV k[a], k[b]`, opcode 0xB0 (R154). -/
  | kMov (a b : RegIdx)
  /-- `K.LI k[a], imm16`, opcode 0xB1 (R155). -/
  | kLi (a : RegIdx) (imm : BitVec 16)
  /-- `K.LD k[a], r[b], r[c]`, opcode 0xB2 (R156). -/
  | kLd (a b c : RegIdx)
  /-- `K.LDSK k[a], r[b], r[c]`, opcode 0xB3 (R157). -/
  | kLdsk (a b c : RegIdx)
  /-- `K.ST k[a], imm16(r[b])`, opcode 0xB4 (R158). -/
  | kSt (a b : RegIdx) (imm : BitVec 16)
  /-- `K.VALID r[a], k[b]`, opcode 0xB5 (R159). -/
  | kValid (a b : RegIdx)
  -- Point loads, stores and hints (R335 to R340, R378 to R383)
  /-- `G1.LDC g[a], imm16(r[b])`, opcode 0xC0 (R335). -/
  | g1Ldc (a b : RegIdx) (imm : BitVec 16)
  /-- `G1.LDU g[a], imm16(r[b])`, opcode 0xC1 (R336). -/
  | g1Ldu (a b : RegIdx) (imm : BitVec 16)
  /-- `G1.STC g[a], imm16(r[b])`, opcode 0xC2 (R337). -/
  | g1Stc (a b : RegIdx) (imm : BitVec 16)
  /-- `G1.STU g[a], imm16(r[b])`, opcode 0xC3 (R338). -/
  | g1Stu (a b : RegIdx) (imm : BitVec 16)
  /-- `G2.LDC h[a], imm16(r[b])`, opcode 0xC4 (R378). -/
  | g2Ldc (a b : RegIdx) (imm : BitVec 16)
  /-- `G2.LDU h[a], imm16(r[b])`, opcode 0xC5 (R379). -/
  | g2Ldu (a b : RegIdx) (imm : BitVec 16)
  /-- `G2.STC h[a], imm16(r[b])`, opcode 0xC6 (R380). -/
  | g2Stc (a b : RegIdx) (imm : BitVec 16)
  /-- `G2.STU h[a], imm16(r[b])`, opcode 0xC7 (R381). -/
  | g2Stu (a b : RegIdx) (imm : BitVec 16)
  /-- `G1.STAFFN r[a], g[b], r[c]`, opcode 0xC8 (R339). -/
  | g1Staffn (a b c : RegIdx)
  /-- `G2.STAFFN r[a], h[b], r[c]`, opcode 0xC9 (R382). -/
  | g2Staffn (a b c : RegIdx)
  /-- `G1.PRECOMP g[a], n`, opcode 0xCA (R340). -/
  | g1Precomp (a : RegIdx) (n : BitVec 4)
  /-- `G2.PRECOMP h[a], n`, opcode 0xCB (R383). -/
  | g2Precomp (a : RegIdx) (n : BitVec 4)
  deriving DecidableEq, Repr

end Sys2Proof
end

