-- ==== Sys2Proof/Decode.lean ====
section
/-! DEFINITION. Decoding and encoding (spec/30_encoding.md). `decode` follows R113 with the rows of R112 sorted
by the high nibble of the opcode (the family, R103) and then by the low one; it is total and rejects by name.
`encode` writes the word of an instruction from the same formats (R101, R102). `opcodeTable` lists mask and
match of every row of R112, to state R113 against. -/

namespace Sys2Proof

/-- Why a word is no instruction (R107). Each raises IllegalInstruction with the word (R472). -/
inductive DecodeError where
  /-- The opcode, or the sub-opcode of 0x6D, 0x7D, 0x6F, 0x7F, is assigned to no row. -/
  | unassigned
  /-- A field the row does not list is not zero (R106). -/
  | unusedField
  /-- `n` of `Q.GET`, `S.GET` or `T.GET` is out of range (R105). -/
  | immediateRange
  deriving DecidableEq, Repr

/-- `op`, bits 31:24 (R101). -/
def fieldOp (w : Word) : Nat := (w.extractLsb' 24 8).toNat

/-- `a`, bits 23:20. -/
def fieldA (w : Word) : RegIdx := (w.extractLsb' 20 4).toFin

/-- `b`, bits 19:16. -/
def fieldB (w : Word) : RegIdx := (w.extractLsb' 16 4).toFin

/-- `c`, bits 15:12. -/
def fieldC (w : Word) : RegIdx := (w.extractLsb' 12 4).toFin

/-- `d`, bits 11:8. -/
def fieldD (w : Word) : RegIdx := (w.extractLsb' 8 4).toFin

/-- `e`, bits 7:4. -/
def fieldE (w : Word) : RegIdx := (w.extractLsb' 4 4).toFin

/-- `n`, bits 3:0, as a register number or a sub-opcode. -/
def fieldN (w : Word) : RegIdx := (w.extractLsb' 0 4).toFin

/-- `n`, bits 3:0, as an immediate. -/
def fieldN4 (w : Word) : BitVec 4 := w.extractLsb' 0 4

/-- `imm16`, bits 15:0 (R102). -/
def fieldImm (w : Word) : BitVec 16 := w.extractLsb' 0 16

/-- A row whose `unused` fields must be zero (R106). -/
def plain (unused : List RegIdx) (i : Instr) : Except DecodeError Instr :=
  if unused.all (· == 0) then .ok i else .error .unusedField

/-- A row with the further condition that `n` is at most `bound` (R105, R113). -/
def getForm (w : Word) (unused : List RegIdx) (bound : Nat) (i : Instr) : Except DecodeError Instr :=
  if unused.all (· == 0) then
    if (fieldN4 w).toNat ≤ bound then .ok i else .error .immediateRange
  else .error .unusedField

/-- Opcodes 0x00 to 0x0F (R112). -/
def decodeControl (w : Word) (low : Nat) : Except DecodeError Instr :=
  match low with
  | 0x1 => plain [fieldA w, fieldB w, fieldC w, fieldD w, fieldE w, fieldN w] .halt
  | 0x2 => plain [fieldA w, fieldB w, fieldC w, fieldD w, fieldE w, fieldN w] .nop
  | 0x3 => plain [fieldA w, fieldB w] (.fail (fieldImm w))
  | 0x4 => plain [fieldB w] (.jal (fieldA w) (fieldImm w))
  | 0x5 => plain [fieldC w, fieldD w, fieldE w, fieldN w] (.jalr (fieldA w) (fieldB w))
  | 0x6 => .ok (.beq (fieldA w) (fieldB w) (fieldImm w))
  | 0x7 => .ok (.bne (fieldA w) (fieldB w) (fieldImm w))
  | 0x8 => .ok (.bltu (fieldA w) (fieldB w) (fieldImm w))
  | _ => .error .unassigned

/-- Opcodes 0x10 to 0x1F (R112). -/
def decodeInteger (w : Word) (low : Nat) : Except DecodeError Instr :=
  match low with
  | 0x0 => plain [fieldB w] (.li (fieldA w) (fieldImm w))
  | 0x1 => plain [fieldB w] (.lui (fieldA w) (fieldImm w))
  | 0x2 => .ok (.addi (fieldA w) (fieldB w) (fieldImm w))
  | 0x3 => plain [fieldD w, fieldE w, fieldN w] (.add (fieldA w) (fieldB w) (fieldC w))
  | 0x4 => plain [fieldD w, fieldE w, fieldN w] (.sub (fieldA w) (fieldB w) (fieldC w))
  | 0x5 => plain [fieldD w, fieldE w, fieldN w] (.and (fieldA w) (fieldB w) (fieldC w))
  | 0x6 => plain [fieldD w, fieldE w, fieldN w] (.or (fieldA w) (fieldB w) (fieldC w))
  | 0x7 => plain [fieldD w, fieldE w, fieldN w] (.xor (fieldA w) (fieldB w) (fieldC w))
  | 0x8 => .ok (.lw (fieldA w) (fieldB w) (fieldImm w))
  | 0x9 => .ok (.sw (fieldA w) (fieldB w) (fieldImm w))
  | 0xA => .ok (.lbu (fieldA w) (fieldB w) (fieldImm w))
  | 0xB => .ok (.sb (fieldA w) (fieldB w) (fieldImm w))
  | _ => .error .unassigned

/-- Opcodes 0x20 to 0x2F (R112). -/
def decodeFp (w : Word) (low : Nat) : Except DecodeError Instr :=
  match low with
  | 0x0 => plain [fieldC w, fieldD w, fieldE w, fieldN w] (.fMov (fieldA w) (fieldB w))
  | 0x1 => plain [fieldB w] (.fLi (fieldA w) (fieldImm w))
  | 0x2 => .ok (.fLd (fieldA w) (fieldB w) (fieldImm w))
  | 0x3 => .ok (.fSt (fieldA w) (fieldB w) (fieldImm w))
  | 0x4 => plain [fieldD w, fieldE w, fieldN w] (.fLdr (fieldA w) (fieldB w) (fieldC w))
  | 0x5 => plain [fieldD w, fieldE w, fieldN w] (.fAdd (fieldA w) (fieldB w) (fieldC w))
  | 0x6 => plain [fieldD w, fieldE w, fieldN w] (.fSub (fieldA w) (fieldB w) (fieldC w))
  | 0x7 => plain [fieldC w, fieldD w, fieldE w, fieldN w] (.fNeg (fieldA w) (fieldB w))
  | 0x8 => plain [fieldD w, fieldE w, fieldN w] (.fMul (fieldA w) (fieldB w) (fieldC w))
  | 0x9 => plain [fieldC w, fieldD w, fieldE w, fieldN w] (.fSqr (fieldA w) (fieldB w))
  | 0xA => plain [fieldC w, fieldD w, fieldE w, fieldN w] (.fInv (fieldA w) (fieldB w))
  | 0xB => plain [fieldD w, fieldE w, fieldN w] (.fDiv (fieldA w) (fieldB w) (fieldC w))
  | 0xC => plain [fieldD w, fieldE w, fieldN w] (.fPow (fieldA w) (fieldB w) (fieldC w))
  | 0xD => plain [fieldD w, fieldE w, fieldN w] (.fSqrt (fieldA w) (fieldB w) (fieldC w))
  | 0xE => plain [fieldD w, fieldE w, fieldN w] (.fEq (fieldA w) (fieldB w) (fieldC w))
  | _ => .error .unassigned

/-- Opcodes 0x30 to 0x3F (R112). -/
def decodeFp2 (w : Word) (low : Nat) : Except DecodeError Instr :=
  match low with
  | 0x0 => plain [fieldC w, fieldD w, fieldE w, fieldN w] (.qMov (fieldA w) (fieldB w))
  | 0x1 => plain [fieldD w, fieldE w, fieldN w] (.qPack (fieldA w) (fieldB w) (fieldC w))
  | 0x2 => getForm w [fieldC w, fieldD w, fieldE w] 1 (.qGet (fieldA w) (fieldB w) (fieldN4 w))
  | 0x3 => plain [fieldC w, fieldD w, fieldE w] (.qFrob (fieldA w) (fieldB w) (fieldN4 w))
  | 0x4 => plain [fieldC w, fieldD w, fieldE w, fieldN w] (.qSgn0 (fieldA w) (fieldB w))
  | 0x5 => plain [fieldD w, fieldE w, fieldN w] (.qAdd (fieldA w) (fieldB w) (fieldC w))
  | 0x6 => plain [fieldD w, fieldE w, fieldN w] (.qSub (fieldA w) (fieldB w) (fieldC w))
  | 0x7 => plain [fieldC w, fieldD w, fieldE w, fieldN w] (.qNeg (fieldA w) (fieldB w))
  | 0x8 => plain [fieldD w, fieldE w, fieldN w] (.qMul (fieldA w) (fieldB w) (fieldC w))
  | 0x9 => plain [fieldC w, fieldD w, fieldE w, fieldN w] (.qSqr (fieldA w) (fieldB w))
  | 0xA => plain [fieldC w, fieldD w, fieldE w, fieldN w] (.qInv (fieldA w) (fieldB w))
  | 0xB => plain [fieldD w, fieldE w, fieldN w] (.qDiv (fieldA w) (fieldB w) (fieldC w))
  | 0xC => plain [fieldD w, fieldE w, fieldN w] (.qPow (fieldA w) (fieldB w) (fieldC w))
  | 0xD => plain [fieldC w, fieldD w, fieldE w, fieldN w] (.qSqrt (fieldA w) (fieldB w))
  | 0xE => plain [fieldD w, fieldE w, fieldN w] (.qEq (fieldA w) (fieldB w) (fieldC w))
  | 0xF => plain [fieldC w, fieldD w, fieldE w, fieldN w] (.qMulnr (fieldA w) (fieldB w))
  | _ => .error .unassigned

/-- Opcodes 0x40 to 0x4F (R112). -/
def decodeFp6 (w : Word) (low : Nat) : Except DecodeError Instr :=
  match low with
  | 0x0 => plain [fieldC w, fieldD w, fieldE w, fieldN w] (.sMov (fieldA w) (fieldB w))
  | 0x1 => plain [fieldE w, fieldN w] (.sPack (fieldA w) (fieldB w) (fieldC w) (fieldD w))
  | 0x2 => getForm w [fieldC w, fieldD w, fieldE w] 2 (.sGet (fieldA w) (fieldB w) (fieldN4 w))
  | 0x3 => plain [fieldD w, fieldE w, fieldN w] (.sMul1 (fieldA w) (fieldB w) (fieldC w))
  | 0x4 => plain [fieldE w, fieldN w] (.sMul01 (fieldA w) (fieldB w) (fieldC w) (fieldD w))
  | 0x5 => plain [fieldD w, fieldE w, fieldN w] (.sAdd (fieldA w) (fieldB w) (fieldC w))
  | 0x6 => plain [fieldD w, fieldE w, fieldN w] (.sSub (fieldA w) (fieldB w) (fieldC w))
  | 0x7 => plain [fieldC w, fieldD w, fieldE w, fieldN w] (.sNeg (fieldA w) (fieldB w))
  | 0x8 => plain [fieldD w, fieldE w, fieldN w] (.sMul (fieldA w) (fieldB w) (fieldC w))
  | 0x9 => plain [fieldC w, fieldD w, fieldE w, fieldN w] (.sSqr (fieldA w) (fieldB w))
  | 0xA => plain [fieldC w, fieldD w, fieldE w, fieldN w] (.sInv (fieldA w) (fieldB w))
  | 0xB => plain [fieldD w, fieldE w, fieldN w] (.sDiv (fieldA w) (fieldB w) (fieldC w))
  | 0xC => plain [fieldD w, fieldE w, fieldN w] (.sPow (fieldA w) (fieldB w) (fieldC w))
  | 0xE => plain [fieldD w, fieldE w, fieldN w] (.sEq (fieldA w) (fieldB w) (fieldC w))
  | 0xF => plain [fieldC w, fieldD w, fieldE w, fieldN w] (.sMulnr (fieldA w) (fieldB w))
  | _ => .error .unassigned

/-- Opcodes 0x50 to 0x5F (R112). -/
def decodeFp12 (w : Word) (low : Nat) : Except DecodeError Instr :=
  match low with
  | 0x0 => plain [fieldC w, fieldD w, fieldE w, fieldN w] (.tMov (fieldA w) (fieldB w))
  | 0x1 => plain [fieldD w, fieldE w, fieldN w] (.tPack (fieldA w) (fieldB w) (fieldC w))
  | 0x2 => getForm w [fieldC w, fieldD w, fieldE w] 1 (.tGet (fieldA w) (fieldB w) (fieldN4 w))
  | 0x3 => plain [fieldC w, fieldD w, fieldE w] (.tFrob (fieldA w) (fieldB w) (fieldN4 w))
  | 0x4 => plain [fieldC w, fieldD w, fieldE w, fieldN w] (.tConj (fieldA w) (fieldB w))
  | 0x5 => plain [fieldD w, fieldE w, fieldN w] (.tAdd (fieldA w) (fieldB w) (fieldC w))
  | 0x6 => plain [fieldD w, fieldE w, fieldN w] (.tSub (fieldA w) (fieldB w) (fieldC w))
  | 0x7 => plain [fieldC w, fieldD w, fieldE w, fieldN w] (.tNeg (fieldA w) (fieldB w))
  | 0x8 => plain [fieldD w, fieldE w, fieldN w] (.tMul (fieldA w) (fieldB w) (fieldC w))
  | 0x9 => plain [fieldC w, fieldD w, fieldE w, fieldN w] (.tSqr (fieldA w) (fieldB w))
  | 0xA => plain [fieldC w, fieldD w, fieldE w, fieldN w] (.tInv (fieldA w) (fieldB w))
  | 0xB => plain [fieldD w, fieldE w, fieldN w] (.tDiv (fieldA w) (fieldB w) (fieldC w))
  | 0xC => plain [fieldD w, fieldE w, fieldN w] (.tPow (fieldA w) (fieldB w) (fieldC w))
  | 0xD => plain [fieldN w] (.tMul014 (fieldA w) (fieldB w) (fieldC w) (fieldD w) (fieldE w))
  | 0xE => plain [fieldD w, fieldE w, fieldN w] (.tEq (fieldA w) (fieldB w) (fieldC w))
  | _ => .error .unassigned

/-- Opcodes 0x60 to 0x6F (R112). -/
def decodeG1 (w : Word) (low : Nat) : Except DecodeError Instr :=
  match low with
  | 0x0 => plain [fieldC w, fieldD w, fieldE w, fieldN w] (.g1Mov (fieldA w) (fieldB w))
  | 0x1 => plain [fieldE w, fieldN w] (.g1Pack (fieldA w) (fieldB w) (fieldC w) (fieldD w))
  | 0x2 => plain [fieldD w, fieldE w, fieldN w] (.g1Getaff (fieldA w) (fieldB w) (fieldC w))
  | 0x3 => plain [fieldB w, fieldC w, fieldD w, fieldE w, fieldN w] (.g1Id (fieldA w))
  | 0x4 => plain [fieldB w, fieldC w, fieldD w, fieldE w, fieldN w] (.g1Gen (fieldA w))
  | 0x5 => plain [fieldD w, fieldE w, fieldN w] (.g1Add (fieldA w) (fieldB w) (fieldC w))
  | 0x6 => plain [fieldD w, fieldE w, fieldN w] (.g1Sub (fieldA w) (fieldB w) (fieldC w))
  | 0x7 => plain [fieldC w, fieldD w, fieldE w, fieldN w] (.g1Neg (fieldA w) (fieldB w))
  | 0x8 => plain [fieldC w, fieldD w, fieldE w, fieldN w] (.g1Dbl (fieldA w) (fieldB w))
  | 0x9 => plain [fieldD w, fieldE w, fieldN w] (.g1Mul (fieldA w) (fieldB w) (fieldC w))
  | 0xA => plain [fieldD w, fieldE w, fieldN w] (.g1Mulu (fieldA w) (fieldB w) (fieldC w))
  | 0xB => plain [fieldC w, fieldD w, fieldE w, fieldN w] (.g1Mulmx (fieldA w) (fieldB w))
  | 0xC => plain [fieldD w, fieldE w, fieldN w] (.g1Eq (fieldA w) (fieldB w) (fieldC w))
  | 0xD =>
    match (fieldN w).val with
    | 0 => plain [fieldC w, fieldD w, fieldE w] (.g1Isid (fieldA w) (fieldB w))
    | 1 => plain [fieldC w, fieldD w, fieldE w] (.g1Oncurve (fieldA w) (fieldB w))
    | 2 => plain [fieldC w, fieldD w, fieldE w] (.g1Insub (fieldA w) (fieldB w))
    | 3 => plain [fieldC w, fieldD w, fieldE w] (.g1Valid (fieldA w) (fieldB w))
    | _ => .error .unassigned
  | 0xE => plain [fieldC w, fieldD w, fieldE w, fieldN w] (.g1Clrcof (fieldA w) (fieldB w))
  | 0xF =>
    match (fieldN w).val with
    | 0 => plain [fieldC w, fieldD w, fieldE w] (.g1Phi (fieldA w) (fieldB w))
    | _ => .error .unassigned
  | _ => .error .unassigned

/-- Opcodes 0x70 to 0x7F (R112). -/
def decodeG2 (w : Word) (low : Nat) : Except DecodeError Instr :=
  match low with
  | 0x0 => plain [fieldC w, fieldD w, fieldE w, fieldN w] (.g2Mov (fieldA w) (fieldB w))
  | 0x1 => plain [fieldE w, fieldN w] (.g2Pack (fieldA w) (fieldB w) (fieldC w) (fieldD w))
  | 0x2 => plain [fieldD w, fieldE w, fieldN w] (.g2Getaff (fieldA w) (fieldB w) (fieldC w))
  | 0x3 => plain [fieldB w, fieldC w, fieldD w, fieldE w, fieldN w] (.g2Id (fieldA w))
  | 0x4 => plain [fieldB w, fieldC w, fieldD w, fieldE w, fieldN w] (.g2Gen (fieldA w))
  | 0x5 => plain [fieldD w, fieldE w, fieldN w] (.g2Add (fieldA w) (fieldB w) (fieldC w))
  | 0x6 => plain [fieldD w, fieldE w, fieldN w] (.g2Sub (fieldA w) (fieldB w) (fieldC w))
  | 0x7 => plain [fieldC w, fieldD w, fieldE w, fieldN w] (.g2Neg (fieldA w) (fieldB w))
  | 0x8 => plain [fieldC w, fieldD w, fieldE w, fieldN w] (.g2Dbl (fieldA w) (fieldB w))
  | 0x9 => plain [fieldD w, fieldE w, fieldN w] (.g2Mul (fieldA w) (fieldB w) (fieldC w))
  | 0xA => plain [fieldD w, fieldE w, fieldN w] (.g2Mulu (fieldA w) (fieldB w) (fieldC w))
  | 0xB => plain [fieldC w, fieldD w, fieldE w, fieldN w] (.g2Mulmx (fieldA w) (fieldB w))
  | 0xC => plain [fieldD w, fieldE w, fieldN w] (.g2Eq (fieldA w) (fieldB w) (fieldC w))
  | 0xD =>
    match (fieldN w).val with
    | 0 => plain [fieldC w, fieldD w, fieldE w] (.g2Isid (fieldA w) (fieldB w))
    | 1 => plain [fieldC w, fieldD w, fieldE w] (.g2Oncurve (fieldA w) (fieldB w))
    | 2 => plain [fieldC w, fieldD w, fieldE w] (.g2Insub (fieldA w) (fieldB w))
    | 3 => plain [fieldC w, fieldD w, fieldE w] (.g2Valid (fieldA w) (fieldB w))
    | _ => .error .unassigned
  | 0xE => plain [fieldC w, fieldD w, fieldE w, fieldN w] (.g2Clrcof (fieldA w) (fieldB w))
  | 0xF =>
    match (fieldN w).val with
    | 0 => plain [fieldC w, fieldD w, fieldE w] (.g2Psi (fieldA w) (fieldB w))
    | 1 => plain [fieldC w, fieldD w, fieldE w] (.g2Psi2 (fieldA w) (fieldB w))
    | _ => .error .unassigned
  | _ => .error .unassigned

/-- Opcodes 0x80 to 0x8F (R112). -/
def decodePairing (w : Word) (low : Nat) : Except DecodeError Instr :=
  match low with
  | 0x0 => plain [fieldC w, fieldD w, fieldE w, fieldN w] (.tCycsqr (fieldA w) (fieldB w))
  | 0x1 => plain [fieldD w, fieldE w, fieldN w] (.tCycexp (fieldA w) (fieldB w) (fieldC w))
  | 0x2 => plain [fieldC w, fieldD w, fieldE w, fieldN w] (.tFinalexp (fieldA w) (fieldB w))
  | 0x3 => plain [fieldD w, fieldE w, fieldN w] (.pairMl (fieldA w) (fieldB w) (fieldC w))
  | 0x4 => plain [fieldD w, fieldE w, fieldN w] (.pair (fieldA w) (fieldB w) (fieldC w))
  | _ => .error .unassigned

/-- Opcodes 0x90 to 0x9F (R112). -/
def decodeHashToCurve (w : Word) (low : Nat) : Except DecodeError Instr :=
  match low with
  | 0x0 => plain [fieldA w, fieldD w, fieldE w, fieldN w] (.h2cDst (fieldB w) (fieldC w))
  | 0x1 => plain [fieldE w, fieldN w] (.h2cXmd (fieldA w) (fieldB w) (fieldC w) (fieldD w))
  | 0x2 => plain [fieldE w, fieldN w] (.h2cH2f (fieldA w) (fieldB w) (fieldC w) (fieldD w))
  | 0x3 => plain [fieldC w, fieldD w, fieldE w, fieldN w] (.h2cSwu (fieldA w) (fieldB w))
  | 0x4 => plain [fieldC w, fieldD w, fieldE w, fieldN w] (.h2cIso (fieldA w) (fieldB w))
  | 0x5 => plain [fieldD w, fieldE w, fieldN w] (.h2cMap (fieldA w) (fieldB w) (fieldC w))
  | 0x6 => plain [fieldD w, fieldE w, fieldN w] (.h2cHash (fieldA w) (fieldB w) (fieldC w))
  | _ => .error .unassigned

/-- Opcodes 0xA0 to 0xAF (R112). -/
def decodeBls (w : Word) (low : Nat) : Except DecodeError Instr :=
  match low with
  | 0x0 => plain [fieldC w, fieldD w, fieldE w, fieldN w] (.blsPk (fieldA w) (fieldB w))
  | 0x1 => plain [fieldN w] (.blsSign (fieldA w) (fieldB w) (fieldC w) (fieldD w) (fieldE w))
  | 0x2 => plain [fieldD w, fieldE w, fieldN w] (.blsSignp (fieldA w) (fieldB w) (fieldC w))
  | 0x3 => plain [fieldE w, fieldN w] (.blsVerify (fieldA w) (fieldB w) (fieldC w) (fieldD w))
  | 0x4 => plain [fieldN w] (.blsVerifyb (fieldA w) (fieldB w) (fieldC w) (fieldD w) (fieldE w))
  | 0x5 => plain [fieldD w, fieldE w, fieldN w] (.blsAggpk (fieldA w) (fieldB w) (fieldC w))
  | 0x6 => plain [fieldD w, fieldE w, fieldN w] (.blsAggsig (fieldA w) (fieldB w) (fieldC w))
  | 0x7 => .ok (.blsVerifyn (fieldA w) (fieldB w) (fieldC w) (fieldD w) (fieldE w) (fieldN w))
  | _ => .error .unassigned

/-- Opcodes 0xB0 to 0xBF (R112). -/
def decodeScalar (w : Word) (low : Nat) : Except DecodeError Instr :=
  match low with
  | 0x0 => plain [fieldC w, fieldD w, fieldE w, fieldN w] (.kMov (fieldA w) (fieldB w))
  | 0x1 => plain [fieldB w] (.kLi (fieldA w) (fieldImm w))
  | 0x2 => plain [fieldD w, fieldE w, fieldN w] (.kLd (fieldA w) (fieldB w) (fieldC w))
  | 0x3 => plain [fieldD w, fieldE w, fieldN w] (.kLdsk (fieldA w) (fieldB w) (fieldC w))
  | 0x4 => .ok (.kSt (fieldA w) (fieldB w) (fieldImm w))
  | 0x5 => plain [fieldC w, fieldD w, fieldE w, fieldN w] (.kValid (fieldA w) (fieldB w))
  | _ => .error .unassigned

/-- Opcodes 0xC0 to 0xCF (R112). -/
def decodePointMemory (w : Word) (low : Nat) : Except DecodeError Instr :=
  match low with
  | 0x0 => .ok (.g1Ldc (fieldA w) (fieldB w) (fieldImm w))
  | 0x1 => .ok (.g1Ldu (fieldA w) (fieldB w) (fieldImm w))
  | 0x2 => .ok (.g1Stc (fieldA w) (fieldB w) (fieldImm w))
  | 0x3 => .ok (.g1Stu (fieldA w) (fieldB w) (fieldImm w))
  | 0x4 => .ok (.g2Ldc (fieldA w) (fieldB w) (fieldImm w))
  | 0x5 => .ok (.g2Ldu (fieldA w) (fieldB w) (fieldImm w))
  | 0x6 => .ok (.g2Stc (fieldA w) (fieldB w) (fieldImm w))
  | 0x7 => .ok (.g2Stu (fieldA w) (fieldB w) (fieldImm w))
  | 0x8 => plain [fieldD w, fieldE w, fieldN w] (.g1Staffn (fieldA w) (fieldB w) (fieldC w))
  | 0x9 => plain [fieldD w, fieldE w, fieldN w] (.g2Staffn (fieldA w) (fieldB w) (fieldC w))
  | 0xA => plain [fieldB w, fieldC w, fieldD w, fieldE w] (.g1Precomp (fieldA w) (fieldN4 w))
  | 0xB => plain [fieldB w, fieldC w, fieldD w, fieldE w] (.g2Precomp (fieldA w) (fieldN4 w))
  | _ => .error .unassigned

/-- The decoding procedure (R113). It reads nothing but the word (R109). -/
def decode (w : Word) : Except DecodeError Instr :=
  match fieldOp w / 16 with
  | 0x0 => decodeControl w (fieldOp w % 16)
  | 0x1 => decodeInteger w (fieldOp w % 16)
  | 0x2 => decodeFp w (fieldOp w % 16)
  | 0x3 => decodeFp2 w (fieldOp w % 16)
  | 0x4 => decodeFp6 w (fieldOp w % 16)
  | 0x5 => decodeFp12 w (fieldOp w % 16)
  | 0x6 => decodeG1 w (fieldOp w % 16)
  | 0x7 => decodeG2 w (fieldOp w % 16)
  | 0x8 => decodePairing w (fieldOp w % 16)
  | 0x9 => decodeHashToCurve w (fieldOp w % 16)
  | 0xA => decodeBls w (fieldOp w % 16)
  | 0xB => decodeScalar w (fieldOp w % 16)
  | 0xC => decodePointMemory w (fieldOp w % 16)
  | _ => .error .unassigned

/-- A word of format R (R101). -/
def encR (op : Nat) (a b c d e n : RegIdx) : Word :=
  BitVec.ofNat 8 op ++ BitVec.ofFin (w := 4) a ++ BitVec.ofFin (w := 4) b ++ BitVec.ofFin (w := 4) c ++
    BitVec.ofFin (w := 4) d ++ BitVec.ofFin (w := 4) e ++ BitVec.ofFin (w := 4) n

/-- A word of format I (R102). -/
def encI (op : Nat) (a b : RegIdx) (imm : BitVec 16) : Word :=
  BitVec.ofNat 8 op ++ BitVec.ofFin (w := 4) a ++ BitVec.ofFin (w := 4) b ++ imm

/-- The word of an instruction, written from R112. -/
def encode (i : Instr) : Word :=
  match i with
  | .halt => encR 0x01 0 0 0 0 0 0
  | .nop => encR 0x02 0 0 0 0 0 0
  | .fail imm => encI 0x03 0 0 imm
  | .jal a imm => encI 0x04 a 0 imm
  | .jalr a b => encR 0x05 a b 0 0 0 0
  | .beq a b imm => encI 0x06 a b imm
  | .bne a b imm => encI 0x07 a b imm
  | .bltu a b imm => encI 0x08 a b imm
  | .li a imm => encI 0x10 a 0 imm
  | .lui a imm => encI 0x11 a 0 imm
  | .addi a b imm => encI 0x12 a b imm
  | .add a b c => encR 0x13 a b c 0 0 0
  | .sub a b c => encR 0x14 a b c 0 0 0
  | .and a b c => encR 0x15 a b c 0 0 0
  | .or a b c => encR 0x16 a b c 0 0 0
  | .xor a b c => encR 0x17 a b c 0 0 0
  | .lw a b imm => encI 0x18 a b imm
  | .sw a b imm => encI 0x19 a b imm
  | .lbu a b imm => encI 0x1A a b imm
  | .sb a b imm => encI 0x1B a b imm
  | .fMov a b => encR 0x20 a b 0 0 0 0
  | .fLi a imm => encI 0x21 a 0 imm
  | .fLd a b imm => encI 0x22 a b imm
  | .fSt a b imm => encI 0x23 a b imm
  | .fLdr a b c => encR 0x24 a b c 0 0 0
  | .fAdd a b c => encR 0x25 a b c 0 0 0
  | .fSub a b c => encR 0x26 a b c 0 0 0
  | .fNeg a b => encR 0x27 a b 0 0 0 0
  | .fMul a b c => encR 0x28 a b c 0 0 0
  | .fSqr a b => encR 0x29 a b 0 0 0 0
  | .fInv a b => encR 0x2A a b 0 0 0 0
  | .fDiv a b c => encR 0x2B a b c 0 0 0
  | .fPow a b c => encR 0x2C a b c 0 0 0
  | .fSqrt a b c => encR 0x2D a b c 0 0 0
  | .fEq a b c => encR 0x2E a b c 0 0 0
  | .qMov a b => encR 0x30 a b 0 0 0 0
  | .qPack a b c => encR 0x31 a b c 0 0 0
  | .qGet a b n => encR 0x32 a b 0 0 0 n.toFin
  | .qFrob a b n => encR 0x33 a b 0 0 0 n.toFin
  | .qSgn0 a b => encR 0x34 a b 0 0 0 0
  | .qAdd a b c => encR 0x35 a b c 0 0 0
  | .qSub a b c => encR 0x36 a b c 0 0 0
  | .qNeg a b => encR 0x37 a b 0 0 0 0
  | .qMul a b c => encR 0x38 a b c 0 0 0
  | .qSqr a b => encR 0x39 a b 0 0 0 0
  | .qInv a b => encR 0x3A a b 0 0 0 0
  | .qDiv a b c => encR 0x3B a b c 0 0 0
  | .qPow a b c => encR 0x3C a b c 0 0 0
  | .qSqrt a b => encR 0x3D a b 0 0 0 0
  | .qEq a b c => encR 0x3E a b c 0 0 0
  | .qMulnr a b => encR 0x3F a b 0 0 0 0
  | .sMov a b => encR 0x40 a b 0 0 0 0
  | .sPack a b c d => encR 0x41 a b c d 0 0
  | .sGet a b n => encR 0x42 a b 0 0 0 n.toFin
  | .sMul1 a b c => encR 0x43 a b c 0 0 0
  | .sMul01 a b c d => encR 0x44 a b c d 0 0
  | .sAdd a b c => encR 0x45 a b c 0 0 0
  | .sSub a b c => encR 0x46 a b c 0 0 0
  | .sNeg a b => encR 0x47 a b 0 0 0 0
  | .sMul a b c => encR 0x48 a b c 0 0 0
  | .sSqr a b => encR 0x49 a b 0 0 0 0
  | .sInv a b => encR 0x4A a b 0 0 0 0
  | .sDiv a b c => encR 0x4B a b c 0 0 0
  | .sPow a b c => encR 0x4C a b c 0 0 0
  | .sEq a b c => encR 0x4E a b c 0 0 0
  | .sMulnr a b => encR 0x4F a b 0 0 0 0
  | .tMov a b => encR 0x50 a b 0 0 0 0
  | .tPack a b c => encR 0x51 a b c 0 0 0
  | .tGet a b n => encR 0x52 a b 0 0 0 n.toFin
  | .tFrob a b n => encR 0x53 a b 0 0 0 n.toFin
  | .tConj a b => encR 0x54 a b 0 0 0 0
  | .tAdd a b c => encR 0x55 a b c 0 0 0
  | .tSub a b c => encR 0x56 a b c 0 0 0
  | .tNeg a b => encR 0x57 a b 0 0 0 0
  | .tMul a b c => encR 0x58 a b c 0 0 0
  | .tSqr a b => encR 0x59 a b 0 0 0 0
  | .tInv a b => encR 0x5A a b 0 0 0 0
  | .tDiv a b c => encR 0x5B a b c 0 0 0
  | .tPow a b c => encR 0x5C a b c 0 0 0
  | .tMul014 a b c d e => encR 0x5D a b c d e 0
  | .tEq a b c => encR 0x5E a b c 0 0 0
  | .g1Mov a b => encR 0x60 a b 0 0 0 0
  | .g1Pack a b c d => encR 0x61 a b c d 0 0
  | .g1Getaff a b c => encR 0x62 a b c 0 0 0
  | .g1Id a => encR 0x63 a 0 0 0 0 0
  | .g1Gen a => encR 0x64 a 0 0 0 0 0
  | .g1Add a b c => encR 0x65 a b c 0 0 0
  | .g1Sub a b c => encR 0x66 a b c 0 0 0
  | .g1Neg a b => encR 0x67 a b 0 0 0 0
  | .g1Dbl a b => encR 0x68 a b 0 0 0 0
  | .g1Mul a b c => encR 0x69 a b c 0 0 0
  | .g1Mulu a b c => encR 0x6A a b c 0 0 0
  | .g1Mulmx a b => encR 0x6B a b 0 0 0 0
  | .g1Eq a b c => encR 0x6C a b c 0 0 0
  | .g1Isid a b => encR 0x6D a b 0 0 0 0
  | .g1Oncurve a b => encR 0x6D a b 0 0 0 1
  | .g1Insub a b => encR 0x6D a b 0 0 0 2
  | .g1Valid a b => encR 0x6D a b 0 0 0 3
  | .g1Clrcof a b => encR 0x6E a b 0 0 0 0
  | .g1Phi a b => encR 0x6F a b 0 0 0 0
  | .g2Mov a b => encR 0x70 a b 0 0 0 0
  | .g2Pack a b c d => encR 0x71 a b c d 0 0
  | .g2Getaff a b c => encR 0x72 a b c 0 0 0
  | .g2Id a => encR 0x73 a 0 0 0 0 0
  | .g2Gen a => encR 0x74 a 0 0 0 0 0
  | .g2Add a b c => encR 0x75 a b c 0 0 0
  | .g2Sub a b c => encR 0x76 a b c 0 0 0
  | .g2Neg a b => encR 0x77 a b 0 0 0 0
  | .g2Dbl a b => encR 0x78 a b 0 0 0 0
  | .g2Mul a b c => encR 0x79 a b c 0 0 0
  | .g2Mulu a b c => encR 0x7A a b c 0 0 0
  | .g2Mulmx a b => encR 0x7B a b 0 0 0 0
  | .g2Eq a b c => encR 0x7C a b c 0 0 0
  | .g2Isid a b => encR 0x7D a b 0 0 0 0
  | .g2Oncurve a b => encR 0x7D a b 0 0 0 1
  | .g2Insub a b => encR 0x7D a b 0 0 0 2
  | .g2Valid a b => encR 0x7D a b 0 0 0 3
  | .g2Clrcof a b => encR 0x7E a b 0 0 0 0
  | .g2Psi a b => encR 0x7F a b 0 0 0 0
  | .g2Psi2 a b => encR 0x7F a b 0 0 0 1
  | .tCycsqr a b => encR 0x80 a b 0 0 0 0
  | .tCycexp a b c => encR 0x81 a b c 0 0 0
  | .tFinalexp a b => encR 0x82 a b 0 0 0 0
  | .pairMl a b c => encR 0x83 a b c 0 0 0
  | .pair a b c => encR 0x84 a b c 0 0 0
  | .h2cDst b c => encR 0x90 0 b c 0 0 0
  | .h2cXmd a b c d => encR 0x91 a b c d 0 0
  | .h2cH2f a b c d => encR 0x92 a b c d 0 0
  | .h2cSwu a b => encR 0x93 a b 0 0 0 0
  | .h2cIso a b => encR 0x94 a b 0 0 0 0
  | .h2cMap a b c => encR 0x95 a b c 0 0 0
  | .h2cHash a b c => encR 0x96 a b c 0 0 0
  | .blsPk a b => encR 0xA0 a b 0 0 0 0
  | .blsSign a b c d e => encR 0xA1 a b c d e 0
  | .blsSignp a b c => encR 0xA2 a b c 0 0 0
  | .blsVerify a b c d => encR 0xA3 a b c d 0 0
  | .blsVerifyb a b c d e => encR 0xA4 a b c d e 0
  | .blsAggpk a b c => encR 0xA5 a b c 0 0 0
  | .blsAggsig a b c => encR 0xA6 a b c 0 0 0
  | .blsVerifyn a b c d e n => encR 0xA7 a b c d e n
  | .kMov a b => encR 0xB0 a b 0 0 0 0
  | .kLi a imm => encI 0xB1 a 0 imm
  | .kLd a b c => encR 0xB2 a b c 0 0 0
  | .kLdsk a b c => encR 0xB3 a b c 0 0 0
  | .kSt a b imm => encI 0xB4 a b imm
  | .kValid a b => encR 0xB5 a b 0 0 0 0
  | .g1Ldc a b imm => encI 0xC0 a b imm
  | .g1Ldu a b imm => encI 0xC1 a b imm
  | .g1Stc a b imm => encI 0xC2 a b imm
  | .g1Stu a b imm => encI 0xC3 a b imm
  | .g2Ldc a b imm => encI 0xC4 a b imm
  | .g2Ldu a b imm => encI 0xC5 a b imm
  | .g2Stc a b imm => encI 0xC6 a b imm
  | .g2Stu a b imm => encI 0xC7 a b imm
  | .g1Staffn a b c => encR 0xC8 a b c 0 0 0
  | .g2Staffn a b c => encR 0xC9 a b c 0 0 0
  | .g1Precomp a n => encR 0xCA a 0 0 0 0 n.toFin
  | .g2Precomp a n => encR 0xCB a 0 0 0 0 n.toFin

/-- The instruction the decoder reads from the low `nbits` bits of `w`; an instruction is one word (R100), so the
bits above are zero. -/
def decodeTableWord (nbits w : Nat) : Option Instr :=
  (decode (BitVec.ofNat 32 (w % 2 ^ nbits))).toOption

/-- Mask and match of the rows with opcodes 0x00 to 0x0F (R112). -/
def rowsControl : List (Word × Word) :=
  [(0xFFFFFFFF, 0x01000000),
   (0xFFFFFFFF, 0x02000000),
   (0xFFFF0000, 0x03000000),
   (0xFF0F0000, 0x04000000),
   (0xFF00FFFF, 0x05000000),
   (0xFF000000, 0x06000000),
   (0xFF000000, 0x07000000),
   (0xFF000000, 0x08000000)]

/-- Mask and match of the rows with opcodes 0x10 to 0x1F (R112). -/
def rowsInteger : List (Word × Word) :=
  [(0xFF0F0000, 0x10000000),
   (0xFF0F0000, 0x11000000),
   (0xFF000000, 0x12000000),
   (0xFF000FFF, 0x13000000),
   (0xFF000FFF, 0x14000000),
   (0xFF000FFF, 0x15000000),
   (0xFF000FFF, 0x16000000),
   (0xFF000FFF, 0x17000000),
   (0xFF000000, 0x18000000),
   (0xFF000000, 0x19000000),
   (0xFF000000, 0x1A000000),
   (0xFF000000, 0x1B000000)]

/-- Mask and match of the rows with opcodes 0x20 to 0x2F (R112). -/
def rowsFp : List (Word × Word) :=
  [(0xFF00FFFF, 0x20000000),
   (0xFF0F0000, 0x21000000),
   (0xFF000000, 0x22000000),
   (0xFF000000, 0x23000000),
   (0xFF000FFF, 0x24000000),
   (0xFF000FFF, 0x25000000),
   (0xFF000FFF, 0x26000000),
   (0xFF00FFFF, 0x27000000),
   (0xFF000FFF, 0x28000000),
   (0xFF00FFFF, 0x29000000),
   (0xFF00FFFF, 0x2A000000),
   (0xFF000FFF, 0x2B000000),
   (0xFF000FFF, 0x2C000000),
   (0xFF000FFF, 0x2D000000),
   (0xFF000FFF, 0x2E000000)]

/-- Mask and match of the rows with opcodes 0x30 to 0x3F (R112). -/
def rowsFp2 : List (Word × Word) :=
  [(0xFF00FFFF, 0x30000000),
   (0xFF000FFF, 0x31000000),
   (0xFF00FFF0, 0x32000000),
   (0xFF00FFF0, 0x33000000),
   (0xFF00FFFF, 0x34000000),
   (0xFF000FFF, 0x35000000),
   (0xFF000FFF, 0x36000000),
   (0xFF00FFFF, 0x37000000),
   (0xFF000FFF, 0x38000000),
   (0xFF00FFFF, 0x39000000),
   (0xFF00FFFF, 0x3A000000),
   (0xFF000FFF, 0x3B000000),
   (0xFF000FFF, 0x3C000000),
   (0xFF00FFFF, 0x3D000000),
   (0xFF000FFF, 0x3E000000),
   (0xFF00FFFF, 0x3F000000)]

/-- Mask and match of the rows with opcodes 0x40 to 0x4F (R112). -/
def rowsFp6 : List (Word × Word) :=
  [(0xFF00FFFF, 0x40000000),
   (0xFF0000FF, 0x41000000),
   (0xFF00FFF0, 0x42000000),
   (0xFF000FFF, 0x43000000),
   (0xFF0000FF, 0x44000000),
   (0xFF000FFF, 0x45000000),
   (0xFF000FFF, 0x46000000),
   (0xFF00FFFF, 0x47000000),
   (0xFF000FFF, 0x48000000),
   (0xFF00FFFF, 0x49000000),
   (0xFF00FFFF, 0x4A000000),
   (0xFF000FFF, 0x4B000000),
   (0xFF000FFF, 0x4C000000),
   (0xFF000FFF, 0x4E000000),
   (0xFF00FFFF, 0x4F000000)]

/-- Mask and match of the rows with opcodes 0x50 to 0x5F (R112). -/
def rowsFp12 : List (Word × Word) :=
  [(0xFF00FFFF, 0x50000000),
   (0xFF000FFF, 0x51000000),
   (0xFF00FFF0, 0x52000000),
   (0xFF00FFF0, 0x53000000),
   (0xFF00FFFF, 0x54000000),
   (0xFF000FFF, 0x55000000),
   (0xFF000FFF, 0x56000000),
   (0xFF00FFFF, 0x57000000),
   (0xFF000FFF, 0x58000000),
   (0xFF00FFFF, 0x59000000),
   (0xFF00FFFF, 0x5A000000),
   (0xFF000FFF, 0x5B000000),
   (0xFF000FFF, 0x5C000000),
   (0xFF00000F, 0x5D000000),
   (0xFF000FFF, 0x5E000000)]

/-- Mask and match of the rows with opcodes 0x60 to 0x6F (R112). -/
def rowsG1 : List (Word × Word) :=
  [(0xFF00FFFF, 0x60000000),
   (0xFF0000FF, 0x61000000),
   (0xFF000FFF, 0x62000000),
   (0xFF0FFFFF, 0x63000000),
   (0xFF0FFFFF, 0x64000000),
   (0xFF000FFF, 0x65000000),
   (0xFF000FFF, 0x66000000),
   (0xFF00FFFF, 0x67000000),
   (0xFF00FFFF, 0x68000000),
   (0xFF000FFF, 0x69000000),
   (0xFF000FFF, 0x6A000000),
   (0xFF00FFFF, 0x6B000000),
   (0xFF000FFF, 0x6C000000),
   (0xFF00FFFF, 0x6D000000),
   (0xFF00FFFF, 0x6D000001),
   (0xFF00FFFF, 0x6D000002),
   (0xFF00FFFF, 0x6D000003),
   (0xFF00FFFF, 0x6E000000),
   (0xFF00FFFF, 0x6F000000)]

/-- Mask and match of the rows with opcodes 0x70 to 0x7F (R112). -/
def rowsG2 : List (Word × Word) :=
  [(0xFF00FFFF, 0x70000000),
   (0xFF0000FF, 0x71000000),
   (0xFF000FFF, 0x72000000),
   (0xFF0FFFFF, 0x73000000),
   (0xFF0FFFFF, 0x74000000),
   (0xFF000FFF, 0x75000000),
   (0xFF000FFF, 0x76000000),
   (0xFF00FFFF, 0x77000000),
   (0xFF00FFFF, 0x78000000),
   (0xFF000FFF, 0x79000000),
   (0xFF000FFF, 0x7A000000),
   (0xFF00FFFF, 0x7B000000),
   (0xFF000FFF, 0x7C000000),
   (0xFF00FFFF, 0x7D000000),
   (0xFF00FFFF, 0x7D000001),
   (0xFF00FFFF, 0x7D000002),
   (0xFF00FFFF, 0x7D000003),
   (0xFF00FFFF, 0x7E000000),
   (0xFF00FFFF, 0x7F000000),
   (0xFF00FFFF, 0x7F000001)]

/-- Mask and match of the rows with opcodes 0x80 to 0x8F (R112). -/
def rowsPairing : List (Word × Word) :=
  [(0xFF00FFFF, 0x80000000),
   (0xFF000FFF, 0x81000000),
   (0xFF00FFFF, 0x82000000),
   (0xFF000FFF, 0x83000000),
   (0xFF000FFF, 0x84000000)]

/-- Mask and match of the rows with opcodes 0x90 to 0x9F (R112). -/
def rowsHashToCurve : List (Word × Word) :=
  [(0xFFF00FFF, 0x90000000),
   (0xFF0000FF, 0x91000000),
   (0xFF0000FF, 0x92000000),
   (0xFF00FFFF, 0x93000000),
   (0xFF00FFFF, 0x94000000),
   (0xFF000FFF, 0x95000000),
   (0xFF000FFF, 0x96000000)]

/-- Mask and match of the rows with opcodes 0xA0 to 0xAF (R112). -/
def rowsBls : List (Word × Word) :=
  [(0xFF00FFFF, 0xA0000000),
   (0xFF00000F, 0xA1000000),
   (0xFF000FFF, 0xA2000000),
   (0xFF0000FF, 0xA3000000),
   (0xFF00000F, 0xA4000000),
   (0xFF000FFF, 0xA5000000),
   (0xFF000FFF, 0xA6000000),
   (0xFF000000, 0xA7000000)]

/-- Mask and match of the rows with opcodes 0xB0 to 0xBF (R112). -/
def rowsScalar : List (Word × Word) :=
  [(0xFF00FFFF, 0xB0000000),
   (0xFF0F0000, 0xB1000000),
   (0xFF000FFF, 0xB2000000),
   (0xFF000FFF, 0xB3000000),
   (0xFF000000, 0xB4000000),
   (0xFF00FFFF, 0xB5000000)]

/-- Mask and match of the rows with opcodes 0xC0 to 0xCF (R112). -/
def rowsPointMemory : List (Word × Word) :=
  [(0xFF000000, 0xC0000000),
   (0xFF000000, 0xC1000000),
   (0xFF000000, 0xC2000000),
   (0xFF000000, 0xC3000000),
   (0xFF000000, 0xC4000000),
   (0xFF000000, 0xC5000000),
   (0xFF000000, 0xC6000000),
   (0xFF000000, 0xC7000000),
   (0xFF000FFF, 0xC8000000),
   (0xFF000FFF, 0xC9000000),
   (0xFF0FFFF0, 0xCA000000),
   (0xFF0FFFF0, 0xCB000000)]

/-- Mask and match of all rows of R112. -/
def opcodeTable : List (Word × Word) :=
  rowsControl ++ rowsInteger ++ rowsFp ++ rowsFp2 ++ rowsFp6 ++ rowsFp12 ++ rowsG1 ++
    rowsG2 ++ rowsPairing ++ rowsHashToCurve ++ rowsBls ++ rowsScalar ++ rowsPointMemory

end Sys2Proof
end

