-- ==== Sys2Proof/Machine/Fp12Instr.lean ====
section
/-! DEFINITION. The meanings of the Fp12, cyclotomic and pairing instructions (spec/44_fp12.md R277 to R294;
spec/47_pairing.md R407, R408): one definition per instruction. -/

namespace Sys2Proof.Machine

open Sys2Proof

/-- `T.MOV t[a], t[b]` (R277). -/
def execTMov (a b : RegIdx) (s : State) : Out := retire s (.ok (writeT s a (readT s b)))

/-- `T.PACK t[a], s[b], s[c]` (R278). -/
def execTPack (a b c : RegIdx) (s : State) : Out := retire s (.ok (writeT s a ⟨readS s b, readS s c⟩))

/-- `T.GET s[a], t[b], n` (R279). An `n` out of range is an ill-formed term, refused at decode. -/
def execTGet (a b : RegIdx) (n : BitVec 4) (s : State) : Out :=
  match n.toNat with
  | 0 => retire s (.ok (writeS s a (readT s b).c0))
  | 1 => retire s (.ok (writeS s a (readT s b).c1))
  | _ => retire s (.error ⟨.illegalInstruction, encode (.tGet a b n)⟩)

/-- `T.FROB t[a], t[b], n` (R280). -/
def execTFrob (a b : RegIdx) (n : BitVec 4) (s : State) : Out :=
  retire s (.ok (writeT s a (tFrob (readT s b) n.toNat)))

/-- `T.CONJ t[a], t[b]` (R281). -/
def execTConj (a b : RegIdx) (s : State) : Out := retire s (.ok (writeT s a (tConj (readT s b))))

/-- `T.ADD t[a], t[b], t[c]` (R282). -/
def execTAdd (a b c : RegIdx) (s : State) : Out := retire s (.ok (writeT s a (tAdd (readT s b) (readT s c))))

/-- `T.SUB t[a], t[b], t[c]` (R283). -/
def execTSub (a b c : RegIdx) (s : State) : Out := retire s (.ok (writeT s a (tSub (readT s b) (readT s c))))

/-- `T.NEG t[a], t[b]` (R284). -/
def execTNeg (a b : RegIdx) (s : State) : Out := retire s (.ok (writeT s a (tNeg (readT s b))))

/-- `T.MUL t[a], t[b], t[c]` (R285). -/
def execTMul (a b c : RegIdx) (s : State) : Out := retire s (.ok (writeT s a (tMul (readT s b) (readT s c))))

/-- `T.SQR t[a], t[b]` (R286). -/
def execTSqr (a b : RegIdx) (s : State) : Out := retire s (.ok (writeT s a (tSqr (readT s b))))

/-- `T.INV t[a], t[b]` (R287). -/
def execTInv (a b : RegIdx) (s : State) : Out :=
  retire s do
    let v ← tInv (readT s b)
    .ok (writeT s a v)

/-- `T.DIV t[a], t[b], t[c]` (R288). -/
def execTDiv (a b c : RegIdx) (s : State) : Out :=
  retire s do
    let v ← tDiv (readT s b) (readT s c)
    .ok (writeT s a v)

/-- `T.POW t[a], t[b], k[c]` (R289). -/
def execTPow (a b c : RegIdx) (s : State) : Out :=
  retire s (.ok (writeT s a (tPow (readT s b) (readK s c).toNat)))

/-- `T.MUL014 t[a], t[b], q[c], q[d], q[e]` (R290). -/
def execTMul014 (a b c d e : RegIdx) (s : State) : Out :=
  retire s (.ok (writeT s a (tMul014 (readT s b) (readQ s c) (readQ s d) (readQ s e))))

/-- `T.EQ r[a], t[b], t[c]` (R291). -/
def execTEq (a b c : RegIdx) (s : State) : Out :=
  retire s (.ok (writeR s a (boolWord (decide (readT s b = readT s c)))))

/-- `T.CYCSQR t[a], t[b]` (R292). -/
def execTCycsqr (a b : RegIdx) (s : State) : Out := retire s (.ok (writeT s a (tCycsqr (readT s b))))

/-- `T.CYCEXP t[a], t[b], k[c]` (R293). -/
def execTCycexp (a b c : RegIdx) (s : State) : Out :=
  retire s (.ok (writeT s a (tCycexp (readT s b) (readK s c).toNat)))

/-- `T.FINALEXP t[a], t[b]` (R294). -/
def execTFinalexp (a b : RegIdx) (s : State) : Out :=
  retire s do
    let v ← tFinalexp (readT s b)
    .ok (writeT s a v)

/-- `PAIR.ML t[a], g[b], h[c]` (R407). -/
def execPairMl (a b c : RegIdx) (s : State) : Out :=
  retire s do
    let v ← pairMl (readG s b) (readH s c)
    .ok (writeT s a v)

/-- `PAIR t[a], g[b], h[c]` (R408). -/
def execPair (a b c : RegIdx) (s : State) : Out :=
  retire s do
    let v ← pairFull (readG s b) (readH s c)
    .ok (writeT s a v)

end Sys2Proof.Machine
end

