-- ==== Sys2Proof/Machine/Fp2Instr.lean ====
section
/-! DEFINITION. The meanings of the Fp2 instructions (spec/42_fp2.md R215 to R230): one definition per
instruction. -/

namespace Sys2Proof.Machine

open Sys2Proof

/-- `Q.MOV q[a], q[b]` (R215). -/
def execQMov (a b : RegIdx) (s : State) : Out := retire s (.ok (writeQ s a (readQ s b)))

/-- `Q.PACK q[a], f[b], f[c]` (R216). -/
def execQPack (a b c : RegIdx) (s : State) : Out := retire s (.ok (writeQ s a ⟨readF s b, readF s c⟩))

/-- `Q.GET f[a], q[b], n` (R217). An `n` out of range is an ill-formed term, refused at decode. -/
def execQGet (a b : RegIdx) (n : BitVec 4) (s : State) : Out :=
  match n.toNat with
  | 0 => retire s (.ok (writeF s a (readQ s b).c0))
  | 1 => retire s (.ok (writeF s a (readQ s b).c1))
  | _ => retire s (.error ⟨.illegalInstruction, encode (.qGet a b n)⟩)

/-- `Q.FROB q[a], q[b], n` (R218). -/
def execQFrob (a b : RegIdx) (n : BitVec 4) (s : State) : Out :=
  retire s (.ok (writeQ s a (qFrob (readQ s b) n.toNat)))

/-- `Q.SGN0 r[a], q[b]` (R219). -/
def execQSgn0 (a b : RegIdx) (s : State) : Out := retire s (.ok (writeR s a (boolWord (qSgn0 (readQ s b)))))

/-- `Q.ADD q[a], q[b], q[c]` (R220). -/
def execQAdd (a b c : RegIdx) (s : State) : Out := retire s (.ok (writeQ s a (qAdd (readQ s b) (readQ s c))))

/-- `Q.SUB q[a], q[b], q[c]` (R221). -/
def execQSub (a b c : RegIdx) (s : State) : Out := retire s (.ok (writeQ s a (qSub (readQ s b) (readQ s c))))

/-- `Q.NEG q[a], q[b]` (R222). -/
def execQNeg (a b : RegIdx) (s : State) : Out := retire s (.ok (writeQ s a (qNeg (readQ s b))))

/-- `Q.MUL q[a], q[b], q[c]` (R223). -/
def execQMul (a b c : RegIdx) (s : State) : Out := retire s (.ok (writeQ s a (qMul (readQ s b) (readQ s c))))

/-- `Q.SQR q[a], q[b]` (R224). -/
def execQSqr (a b : RegIdx) (s : State) : Out := retire s (.ok (writeQ s a (qSqr (readQ s b))))

/-- `Q.INV q[a], q[b]` (R225). -/
def execQInv (a b : RegIdx) (s : State) : Out :=
  retire s do
    let v ← qInv (readQ s b)
    .ok (writeQ s a v)

/-- `Q.DIV q[a], q[b], q[c]` (R226). -/
def execQDiv (a b c : RegIdx) (s : State) : Out :=
  retire s do
    let v ← qDiv (readQ s b) (readQ s c)
    .ok (writeQ s a v)

/-- `Q.POW q[a], q[b], k[c]` (R227). -/
def execQPow (a b c : RegIdx) (s : State) : Out :=
  retire s (.ok (writeQ s a (qPow (readQ s b) (readK s c).toNat)))

/-- `Q.SQRT q[a], q[b]` (R228). -/
def execQSqrt (a b : RegIdx) (s : State) : Out :=
  retire s do
    let v ← qSqrt (readQ s b)
    .ok (writeQ s a v)

/-- `Q.EQ r[a], q[b], q[c]` (R229). -/
def execQEq (a b c : RegIdx) (s : State) : Out :=
  retire s (.ok (writeR s a (boolWord (decide (readQ s b = readQ s c)))))

/-- `Q.MULNR q[a], q[b]` (R230). -/
def execQMulnr (a b : RegIdx) (s : State) : Out := retire s (.ok (writeQ s a (qMulnr (readQ s b))))

end Sys2Proof.Machine
end

