-- ==== Sys2Proof/Machine/Fp6Instr.lean ====
section
/-! DEFINITION. The meanings of the Fp6 instructions (spec/43_fp6.md R245 to R259): one definition per
instruction. -/

namespace Sys2Proof.Machine

open Sys2Proof

/-- `S.MOV s[a], s[b]` (R245). -/
def execSMov (a b : RegIdx) (s : State) : Out := retire s (.ok (writeS s a (readS s b)))

/-- `S.PACK s[a], q[b], q[c], q[d]` (R246). -/
def execSPack (a b c d : RegIdx) (s : State) : Out :=
  retire s (.ok (writeS s a ⟨readQ s b, readQ s c, readQ s d⟩))

/-- `S.GET q[a], s[b], n` (R247). An `n` out of range is an ill-formed term, refused at decode. -/
def execSGet (a b : RegIdx) (n : BitVec 4) (s : State) : Out :=
  match n.toNat with
  | 0 => retire s (.ok (writeQ s a (readS s b).c0))
  | 1 => retire s (.ok (writeQ s a (readS s b).c1))
  | 2 => retire s (.ok (writeQ s a (readS s b).c2))
  | _ => retire s (.error ⟨.illegalInstruction, encode (.sGet a b n)⟩)

/-- `S.MUL1 s[a], s[b], q[c]` (R248). -/
def execSMul1 (a b c : RegIdx) (s : State) : Out := retire s (.ok (writeS s a (sMul1 (readS s b) (readQ s c))))

/-- `S.MUL01 s[a], s[b], q[c], q[d]` (R249). -/
def execSMul01 (a b c d : RegIdx) (s : State) : Out :=
  retire s (.ok (writeS s a (sMul01 (readS s b) (readQ s c) (readQ s d))))

/-- `S.ADD s[a], s[b], s[c]` (R250). -/
def execSAdd (a b c : RegIdx) (s : State) : Out := retire s (.ok (writeS s a (sAdd (readS s b) (readS s c))))

/-- `S.SUB s[a], s[b], s[c]` (R251). -/
def execSSub (a b c : RegIdx) (s : State) : Out := retire s (.ok (writeS s a (sSub (readS s b) (readS s c))))

/-- `S.NEG s[a], s[b]` (R252). -/
def execSNeg (a b : RegIdx) (s : State) : Out := retire s (.ok (writeS s a (sNeg (readS s b))))

/-- `S.MUL s[a], s[b], s[c]` (R253). -/
def execSMul (a b c : RegIdx) (s : State) : Out := retire s (.ok (writeS s a (sMul (readS s b) (readS s c))))

/-- `S.SQR s[a], s[b]` (R254). -/
def execSSqr (a b : RegIdx) (s : State) : Out := retire s (.ok (writeS s a (sSqr (readS s b))))

/-- `S.INV s[a], s[b]` (R255). -/
def execSInv (a b : RegIdx) (s : State) : Out :=
  retire s do
    let v ← sInv (readS s b)
    .ok (writeS s a v)

/-- `S.DIV s[a], s[b], s[c]` (R256). -/
def execSDiv (a b c : RegIdx) (s : State) : Out :=
  retire s do
    let v ← sDiv (readS s b) (readS s c)
    .ok (writeS s a v)

/-- `S.POW s[a], s[b], k[c]` (R257). -/
def execSPow (a b c : RegIdx) (s : State) : Out :=
  retire s (.ok (writeS s a (sPow (readS s b) (readK s c).toNat)))

/-- `S.EQ r[a], s[b], s[c]` (R258). -/
def execSEq (a b c : RegIdx) (s : State) : Out :=
  retire s (.ok (writeR s a (boolWord (decide (readS s b = readS s c)))))

/-- `S.MULNR s[a], s[b]` (R259). -/
def execSMulnr (a b : RegIdx) (s : State) : Out := retire s (.ok (writeS s a (sMulnr (readS s b))))

end Sys2Proof.Machine
end

