-- ==== Sys2Proof/Machine/FpInstr.lean ====
section
/-! DEFINITION. The meanings of the Fp instructions (spec/41_fp.md R185 to R199): one definition per
instruction. -/

namespace Sys2Proof.Machine

open Sys2Proof

/-- `F.MOV f[a], f[b]` (R185). -/
def execFMov (a b : RegIdx) (s : State) : Out := retire s (.ok (writeF s a (readF s b)))

/-- `F.LI f[a], imm16` (R186). -/
def execFLi (a : RegIdx) (imm : BitVec 16) (s : State) : Out := retire s (.ok (writeF s a (toFp imm.toNat)))

/-- `F.LD f[a], imm16(r[b])` (R187). -/
def execFLd (a b : RegIdx) (imm : BitVec 16) (s : State) : Out :=
  retire s do
    let bytes ← memRead s (effAddr s b imm) 48
    let v ← canonical (os2ip bytes)
    .ok (writeF s a v)

/-- `F.ST f[a], imm16(r[b])` (R188). -/
def execFSt (a b : RegIdx) (imm : BitVec 16) (s : State) : Out :=
  retire s (memWrite s (effAddr s b imm) (i2osp (readF s a).val 48))

/-- `F.LDR f[a], r[b], r[c]` (R189). -/
def execFLdr (a b c : RegIdx) (s : State) : Out :=
  retire s do
    let bytes ← memRead s (readR s b) (readR s c).toNat
    .ok (writeF s a (toFp (os2ip bytes)))

/-- `F.ADD f[a], f[b], f[c]` (R190). -/
def execFAdd (a b c : RegIdx) (s : State) : Out := retire s (.ok (writeF s a (fadd (readF s b) (readF s c))))

/-- `F.SUB f[a], f[b], f[c]` (R191). -/
def execFSub (a b c : RegIdx) (s : State) : Out := retire s (.ok (writeF s a (fsub (readF s b) (readF s c))))

/-- `F.NEG f[a], f[b]` (R192). -/
def execFNeg (a b : RegIdx) (s : State) : Out := retire s (.ok (writeF s a (fneg (readF s b))))

/-- `F.MUL f[a], f[b], f[c]` (R193). -/
def execFMul (a b c : RegIdx) (s : State) : Out := retire s (.ok (writeF s a (fmul (readF s b) (readF s c))))

/-- `F.SQR f[a], f[b]` (R194). -/
def execFSqr (a b : RegIdx) (s : State) : Out := retire s (.ok (writeF s a (fsqr (readF s b))))

/-- `F.INV f[a], f[b]` (R195). -/
def execFInv (a b : RegIdx) (s : State) : Out :=
  retire s do
    let v ← finv (readF s b)
    .ok (writeF s a v)

/-- `F.DIV f[a], f[b], f[c]` (R196). -/
def execFDiv (a b c : RegIdx) (s : State) : Out :=
  retire s do
    let v ← fdiv (readF s b) (readF s c)
    .ok (writeF s a v)

/-- `F.POW f[a], f[b], k[c]` (R197). -/
def execFPow (a b c : RegIdx) (s : State) : Out :=
  retire s (.ok (writeF s a (fpow (readF s b) (readK s c).toNat)))

/-- `F.SQRT f[a], f[b], r[c]` (R198). Where there is no root, `f[a]` is left unchanged. -/
def execFSqrt (a b c : RegIdx) (s : State) : Out :=
  match fsqrt (readF s b) with
  | some v => retire s (.ok (writeR (writeF s a v) c 1))
  | none => retire s (.ok (writeR s c 0))

/-- `F.EQ r[a], f[b], f[c]` (R199). -/
def execFEq (a b c : RegIdx) (s : State) : Out :=
  retire s (.ok (writeR s a (boolWord (decide (readF s b = readF s c)))))

end Sys2Proof.Machine
end

