-- ==== Sys2Proof/Machine/G1Instr.lean ====
section
/-! DEFINITION. The meanings of the G1 instructions (spec/45_g1.md R316 to R334): one definition per
instruction. -/

namespace Sys2Proof.Machine

open Sys2Proof

/-- `G1.MOV g[a], g[b]` (R316). -/
def execG1Mov (a b : RegIdx) (s : State) : Out := retire s (.ok (writeG s a (readG s b)))

/-- `G1.PACK g[a], f[b], f[c], f[d]` (R317). -/
def execG1Pack (a b c d : RegIdx) (s : State) : Out :=
  retire s (.ok (writeG s a (if (readF s d).val = 0 then .O else toAffine opsFp (readF s b) (readF s c) (readF s d))))

/-- `G1.GETAFF f[a], f[b], g[c]` (R318). `y` is written second. -/
def execG1Getaff (a b c : RegIdx) (s : State) : Out :=
  match readG s c with
  | .O => retire s (.error (fails .noInverse))
  | .aff x y => retire s (.ok (writeF (writeF s a x) b y))

/-- `G1.ID g[a]` (R319). -/
def execG1Id (a : RegIdx) (s : State) : Out := retire s (.ok (writeG s a .O))

/-- `G1.GEN g[a]` (R320). -/
def execG1Gen (a : RegIdx) (s : State) : Out := retire s (.ok (writeG s a gen1))

/-- `G1.ADD g[a], g[b], g[c]` (R321). -/
def execG1Add (a b c : RegIdx) (s : State) : Out :=
  retire s (.ok (writeG s a (ptAdd opsFp (readG s b) (readG s c))))

/-- `G1.SUB g[a], g[b], g[c]` (R322). -/
def execG1Sub (a b c : RegIdx) (s : State) : Out :=
  retire s (.ok (writeG s a (ptSub opsFp (readG s b) (readG s c))))

/-- `G1.NEG g[a], g[b]` (R323). -/
def execG1Neg (a b : RegIdx) (s : State) : Out := retire s (.ok (writeG s a (ptNeg opsFp (readG s b))))

/-- `G1.DBL g[a], g[b]` (R324). -/
def execG1Dbl (a b : RegIdx) (s : State) : Out := retire s (.ok (writeG s a (ptDbl opsFp (readG s b))))

/-- `G1.MUL g[a], g[b], k[c]` (R325). -/
def execG1Mul (a b c : RegIdx) (s : State) : Out :=
  retire s (.ok (writeG s a (mul1 (readG s b) (readK s c).toNat)))

/-- `G1.MULU g[a], g[b], k[c]` (R326). The same class as `G1.MUL`. -/
def execG1Mulu (a b c : RegIdx) (s : State) : Out :=
  retire s (.ok (writeG s a (mul1 (readG s b) (readK s c).toNat)))

/-- `G1.MULMX g[a], g[b]` (R327). -/
def execG1Mulmx (a b : RegIdx) (s : State) : Out := retire s (.ok (writeG s a (mul1 (readG s b) xAbs)))

/-- `G1.EQ r[a], g[b], g[c]` (R328). -/
def execG1Eq (a b c : RegIdx) (s : State) : Out :=
  retire s (.ok (writeR s a (boolWord (decide (readG s b = readG s c)))))

/-- `G1.ISID r[a], g[b]` (R329). -/
def execG1Isid (a b : RegIdx) (s : State) : Out := retire s (.ok (writeR s a (boolWord (isO (readG s b)))))

/-- `G1.ONCURVE r[a], g[b]` (R330). -/
def execG1Oncurve (a b : RegIdx) (s : State) : Out :=
  retire s (.ok (writeR s a (boolWord (oncurve (readG s b)))))

/-- `G1.INSUB r[a], g[b]` (R331). -/
def execG1Insub (a b : RegIdx) (s : State) : Out := retire s (.ok (writeR s a (boolWord (insub1 (readG s b)))))

/-- `G1.VALID r[a], g[b]` (R332). -/
def execG1Valid (a b : RegIdx) (s : State) : Out := retire s (.ok (writeR s a (boolWord (valid1 (readG s b)))))

/-- `G1.CLRCOF g[a], g[b]` (R333). -/
def execG1Clrcof (a b : RegIdx) (s : State) : Out := retire s (.ok (writeG s a (clear1 (readG s b))))

/-- `G1.PHI g[a], g[b]` (R334). -/
def execG1Phi (a b : RegIdx) (s : State) : Out := retire s (.ok (writeG s a (phi (readG s b))))

end Sys2Proof.Machine
end

