-- ==== Sys2Proof/Machine/G2Instr.lean ====
section
/-! DEFINITION. The meanings of the G2 instructions (spec/46_g2.md R358 to R377): one definition per
instruction. -/

namespace Sys2Proof.Machine

open Sys2Proof

/-- `G2.MOV h[a], h[b]` (R358). -/
def execG2Mov (a b : RegIdx) (s : State) : Out := retire s (.ok (writeH s a (readH s b)))

/-- `G2.PACK h[a], q[b], q[c], q[d]` (R359). -/
def execG2Pack (a b c d : RegIdx) (s : State) : Out :=
  retire s (.ok (writeH s a (if readQ s d = zero2 then .O else toAffine opsFp2 (readQ s b) (readQ s c) (readQ s d))))

/-- `G2.GETAFF q[a], q[b], h[c]` (R360). `y` is written second. -/
def execG2Getaff (a b c : RegIdx) (s : State) : Out :=
  match readH s c with
  | .O => retire s (.error (fails .noInverse))
  | .aff x y => retire s (.ok (writeQ (writeQ s a x) b y))

/-- `G2.ID h[a]` (R361). -/
def execG2Id (a : RegIdx) (s : State) : Out := retire s (.ok (writeH s a .O))

/-- `G2.GEN h[a]` (R362). -/
def execG2Gen (a : RegIdx) (s : State) : Out := retire s (.ok (writeH s a gen2))

/-- `G2.ADD h[a], h[b], h[c]` (R363). -/
def execG2Add (a b c : RegIdx) (s : State) : Out :=
  retire s (.ok (writeH s a (ptAdd opsFp2 (readH s b) (readH s c))))

/-- `G2.SUB h[a], h[b], h[c]` (R364). -/
def execG2Sub (a b c : RegIdx) (s : State) : Out :=
  retire s (.ok (writeH s a (ptSub opsFp2 (readH s b) (readH s c))))

/-- `G2.NEG h[a], h[b]` (R365). -/
def execG2Neg (a b : RegIdx) (s : State) : Out := retire s (.ok (writeH s a (ptNeg opsFp2 (readH s b))))

/-- `G2.DBL h[a], h[b]` (R366). -/
def execG2Dbl (a b : RegIdx) (s : State) : Out := retire s (.ok (writeH s a (ptDbl opsFp2 (readH s b))))

/-- `G2.MUL h[a], h[b], k[c]` (R367). -/
def execG2Mul (a b c : RegIdx) (s : State) : Out :=
  retire s (.ok (writeH s a (mul2 (readH s b) (readK s c).toNat)))

/-- `G2.MULU h[a], h[b], k[c]` (R368). The same class as `G2.MUL`. -/
def execG2Mulu (a b c : RegIdx) (s : State) : Out :=
  retire s (.ok (writeH s a (mul2 (readH s b) (readK s c).toNat)))

/-- `G2.MULMX h[a], h[b]` (R369). -/
def execG2Mulmx (a b : RegIdx) (s : State) : Out := retire s (.ok (writeH s a (mul2 (readH s b) xAbs)))

/-- `G2.EQ r[a], h[b], h[c]` (R370). -/
def execG2Eq (a b c : RegIdx) (s : State) : Out :=
  retire s (.ok (writeR s a (boolWord (decide (readH s b = readH s c)))))

/-- `G2.ISID r[a], h[b]` (R371). -/
def execG2Isid (a b : RegIdx) (s : State) : Out := retire s (.ok (writeR s a (boolWord (isO (readH s b)))))

/-- `G2.ONCURVE r[a], h[b]` (R372). -/
def execG2Oncurve (a b : RegIdx) (s : State) : Out :=
  retire s (.ok (writeR s a (boolWord (oncurve2 (readH s b)))))

/-- `G2.INSUB r[a], h[b]` (R373). -/
def execG2Insub (a b : RegIdx) (s : State) : Out := retire s (.ok (writeR s a (boolWord (insub2 (readH s b)))))

/-- `G2.VALID r[a], h[b]` (R374). -/
def execG2Valid (a b : RegIdx) (s : State) : Out := retire s (.ok (writeR s a (boolWord (valid2 (readH s b)))))

/-- `G2.CLRCOF h[a], h[b]` (R375). -/
def execG2Clrcof (a b : RegIdx) (s : State) : Out := retire s (.ok (writeH s a (clear2 (readH s b))))

/-- `G2.PSI h[a], h[b]` (R376). -/
def execG2Psi (a b : RegIdx) (s : State) : Out := retire s (.ok (writeH s a (psi (readH s b))))

/-- `G2.PSI2 h[a], h[b]` (R377). -/
def execG2Psi2 (a b : RegIdx) (s : State) : Out := retire s (.ok (writeH s a (psi2 (readH s b))))

end Sys2Proof.Machine
end

