-- ==== Sys2Proof/Machine/HashInstr.lean ====
section
/-! DEFINITION. The meanings of the hash-to-curve instructions (spec/48_hash_to_curve.md R430 to R436): one
definition per instruction. -/

namespace Sys2Proof.Machine

open Sys2Proof

/-- `H2C.DST r[b], r[c]` (R430). -/
def execH2cDst (b c : RegIdx) (s : State) : Out :=
  retire s
    (if Config.dstMax < (readR s c).toNat then .error (fails .badLength)
    else do
      let tag ← memRead s (readR s b) (readR s c).toNat
      .ok (setTag s tag))

/-- `H2C.XMD r[a], r[b], r[c], r[d]` (R431). -/
def execH2cXmd (a b c d : RegIdx) (s : State) : Out :=
  retire s
    (if Config.xmdMax < (readR s d).toNat then .error (fails .badLength)
    else do
      let msg ← memRead s (readR s b) (readR s c).toNat
      memWrite s (readR s a) (xmd sha256 msg s.dstBuf (readR s d).toNat))

/-- `H2C.H2F q[a], q[b], r[c], r[d]` (R432). `u1` is written second. -/
def execH2cH2f (a b c d : RegIdx) (s : State) : Out :=
  retire s do
    let msg ← memRead s (readR s c) (readR s d).toNat
    let u := hashToField sha256 msg s.dstBuf
    .ok (writeQ (writeQ s a u.1) b u.2)

/-- `H2C.SWU h[a], q[b]` (R433). -/
def execH2cSwu (a b : RegIdx) (s : State) : Out := retire s (.ok (writeH s a (sswu (readQ s b))))

/-- `H2C.ISO h[a], h[b]` (R434). -/
def execH2cIso (a b : RegIdx) (s : State) : Out := retire s (.ok (writeH s a (iso (readH s b))))

/-- `H2C.MAP h[a], q[b], q[c]` (R435). -/
def execH2cMap (a b c : RegIdx) (s : State) : Out :=
  retire s (.ok (writeH s a (mapToG2 (readQ s b) (readQ s c))))

/-- `H2C.HASH h[a], r[b], r[c]` (R436). -/
def execH2cHash (a b c : RegIdx) (s : State) : Out :=
  retire s do
    let msg ← memRead s (readR s b) (readR s c).toNat
    .ok (writeH s a (hashToG2 sha256 msg s.dstBuf))

end Sys2Proof.Machine
end

