-- ==== Sys2Proof/Machine/Integer.lean ====
section
/-! DEFINITION. The meanings of the integer instructions (spec/40_control_integer_scalar.md R142 to R153): one
definition per instruction. -/

namespace Sys2Proof.Machine

open Sys2Proof

/-- `LI r[a], imm16` (R142). -/
def execLi (a : RegIdx) (imm : BitVec 16) (s : State) : Out := retire s (.ok (writeR s a (immU imm)))

/-- `LUI r[a], imm16` (R143). -/
def execLui (a : RegIdx) (imm : BitVec 16) (s : State) : Out := retire s (.ok (writeR s a (immHigh imm)))

/-- `ADDI r[a], r[b], imm16` (R144). -/
def execAddi (a b : RegIdx) (imm : BitVec 16) (s : State) : Out :=
  retire s (.ok (writeR s a (readR s b + immS imm)))

/-- `ADD r[a], r[b], r[c]` (R145). -/
def execAdd (a b c : RegIdx) (s : State) : Out := retire s (.ok (writeR s a (readR s b + readR s c)))

/-- `SUB r[a], r[b], r[c]` (R146). -/
def execSub (a b c : RegIdx) (s : State) : Out := retire s (.ok (writeR s a (readR s b - readR s c)))

/-- `AND r[a], r[b], r[c]` (R147). -/
def execAnd (a b c : RegIdx) (s : State) : Out := retire s (.ok (writeR s a (readR s b &&& readR s c)))

/-- `OR r[a], r[b], r[c]` (R148). -/
def execOr (a b c : RegIdx) (s : State) : Out := retire s (.ok (writeR s a (readR s b ||| readR s c)))

/-- `XOR r[a], r[b], r[c]` (R149). -/
def execXor (a b c : RegIdx) (s : State) : Out := retire s (.ok (writeR s a (readR s b ^^^ readR s c)))

/-- `LW r[a], imm16(r[b])` (R150). -/
def execLw (a b : RegIdx) (imm : BitVec 16) (s : State) : Out :=
  retire s do
    let bytes ← memRead s (effAddr s b imm) 4
    .ok (writeR s a (BitVec.ofNat 32 (os2ip bytes)))

/-- `SW r[a], imm16(r[b])` (R151). -/
def execSw (a b : RegIdx) (imm : BitVec 16) (s : State) : Out :=
  retire s (memWrite s (effAddr s b imm) (i2osp (readR s a).toNat 4))

/-- `LBU r[a], imm16(r[b])` (R152). -/
def execLbu (a b : RegIdx) (imm : BitVec 16) (s : State) : Out :=
  retire s do
    let bytes ← memRead s (effAddr s b imm) 1
    .ok (writeR s a ((bytes.headD 0).setWidth 32))

/-- `SB r[a], imm16(r[b])` (R153). -/
def execSb (a b : RegIdx) (imm : BitVec 16) (s : State) : Out :=
  retire s (memWrite s (effAddr s b imm) (i2osp ((readR s a).extractLsb' 0 8).toNat 1))

end Sys2Proof.Machine
end

