-- ==== Sys2Proof/Machine/PointMemory.lean ====
section
/-! DEFINITION. The meanings of the point loads, stores and hints (spec/45_g1.md R335 to R340; spec/46_g2.md
R378 to R383): one definition per instruction. -/

namespace Sys2Proof.Machine

open Sys2Proof

/-- `G1.LDC g[a], imm16(r[b])` (R335). -/
def execG1Ldc (a b : RegIdx) (imm : BitVec 16) (s : State) : Out :=
  retire s do
    let bytes ← memRead s (effAddr s b imm) 48
    let v ← decompress1 bytes
    .ok (writeG s a v)

/-- `G1.LDU g[a], imm16(r[b])` (R336). -/
def execG1Ldu (a b : RegIdx) (imm : BitVec 16) (s : State) : Out :=
  retire s do
    let bytes ← memRead s (effAddr s b imm) 96
    let v ← decodeU1 bytes
    .ok (writeG s a v)

/-- `G1.STC g[a], imm16(r[b])` (R337). -/
def execG1Stc (a b : RegIdx) (imm : BitVec 16) (s : State) : Out :=
  retire s (memWrite s (effAddr s b imm) (compress1 (readG s a)))

/-- `G1.STU g[a], imm16(r[b])` (R338). -/
def execG1Stu (a b : RegIdx) (imm : BitVec 16) (s : State) : Out :=
  retire s (memWrite s (effAddr s b imm) (uncompressed1 (readG s a)))

/-- `G2.LDC h[a], imm16(r[b])` (R378). -/
def execG2Ldc (a b : RegIdx) (imm : BitVec 16) (s : State) : Out :=
  retire s do
    let bytes ← memRead s (effAddr s b imm) 96
    let v ← decompress2 bytes
    .ok (writeH s a v)

/-- `G2.LDU h[a], imm16(r[b])` (R379). -/
def execG2Ldu (a b : RegIdx) (imm : BitVec 16) (s : State) : Out :=
  retire s do
    let bytes ← memRead s (effAddr s b imm) 192
    let v ← decodeU2 bytes
    .ok (writeH s a v)

/-- `G2.STC h[a], imm16(r[b])` (R380). -/
def execG2Stc (a b : RegIdx) (imm : BitVec 16) (s : State) : Out :=
  retire s (memWrite s (effAddr s b imm) (compress2 (readH s a)))

/-- `G2.STU h[a], imm16(r[b])` (R381). -/
def execG2Stu (a b : RegIdx) (imm : BitVec 16) (s : State) : Out :=
  retire s (memWrite s (effAddr s b imm) (uncompressed2 (readH s a)))

/-- `G1.STAFFN r[a], g[b], r[c]` (R339). The whole range is checked before any byte is written. -/
def execG1Staffn (a b c : RegIdx) (s : State) : Out :=
  retire s do
    let pts ← regRun s.g b (readR s c).toNat
    memWrite s (readR s a) (pts.flatMap uncompressed1)

/-- `G2.STAFFN r[a], h[b], r[c]` (R382). The whole range is checked before any byte is written. -/
def execG2Staffn (a b c : RegIdx) (s : State) : Out :=
  retire s do
    let pts ← regRun s.h b (readR s c).toNat
    memWrite s (readR s a) (pts.flatMap uncompressed2)

/-- `G1.PRECOMP g[a], n` (R340). A hint: `NOP`. -/
def execG1Precomp (_a : RegIdx) (_n : BitVec 4) (s : State) : Out := retire s (.ok s)

/-- `G2.PRECOMP h[a], n` (R383). A hint: `NOP`. -/
def execG2Precomp (_a : RegIdx) (_n : BitVec 4) (s : State) : Out := retire s (.ok s)

end Sys2Proof.Machine
end

