-- ==== Sys2Proof/Machine/ScalarInstr.lean ====
section
/-! DEFINITION. The meanings of the scalar-register instructions (spec/40_control_integer_scalar.md R154 to
R159): one definition per instruction. -/

namespace Sys2Proof.Machine

open Sys2Proof

/-- `K.MOV k[a], k[b]` (R154). -/
def execKMov (a b : RegIdx) (s : State) : Out := retire s (.ok (writeK s a (readK s b)))

/-- `K.LI k[a], imm16` (R155). -/
def execKLi (a : RegIdx) (imm : BitVec 16) (s : State) : Out := retire s (.ok (writeK s a (immScalar imm)))

/-- `K.LD k[a], r[b], r[c]` (R156). -/
def execKLd (a b c : RegIdx) (s : State) : Out :=
  retire s do
    let bytes ← memRead s (readR s b) (readR s c).toNat
    if 2 ^ 256 ≤ os2ip bytes then .error (fails .scalarOutOfRange)
    else .ok (writeK s a (BitVec.ofNat 256 (os2ip bytes)))

/-- `K.LDSK k[a], r[b], r[c]` (R157). -/
def execKLdsk (a b c : RegIdx) (s : State) : Out :=
  retire s do
    let bytes ← memRead s (readR s b) (readR s c).toNat
    if keyInRange (os2ip bytes) = false then .error (fails .scalarOutOfRange)
    else .ok (writeK s a (BitVec.ofNat 256 (os2ip bytes)))

/-- `K.ST k[a], imm16(r[b])` (R158). -/
def execKSt (a b : RegIdx) (imm : BitVec 16) (s : State) : Out :=
  retire s (memWrite s (effAddr s b imm) (i2osp (readK s a).toNat 32))

/-- `K.VALID r[a], k[b]` (R159). -/
def execKValid (a b : RegIdx) (s : State) : Out :=
  retire s (.ok (writeR s a (boolWord (keyInRange (readK s b).toNat))))

end Sys2Proof.Machine
end

