-- ==== Sys2Proof/Machine/Dispatch.lean ====
section
/-! DEFINITION. The dispatch: one arm per constructor of `Instr`, each a direct call of its meaning. -/

namespace Sys2Proof.Machine

open Sys2Proof

def exec (i : Instr) (s : State) : Host.Outcome State Fault Refusal :=
  match i with
  | .halt => Sys2Proof.Machine.execHalt s
  | .nop => Sys2Proof.Machine.execNop s
  | .fail imm => Sys2Proof.Machine.execFail imm s
  | .jal a imm => Sys2Proof.Machine.execJal a imm s
  | .jalr a b => Sys2Proof.Machine.execJalr a b s
  | .beq a b imm => Sys2Proof.Machine.execBeq a b imm s
  | .bne a b imm => Sys2Proof.Machine.execBne a b imm s
  | .bltu a b imm => Sys2Proof.Machine.execBltu a b imm s
  | .li a imm => Sys2Proof.Machine.execLi a imm s
  | .lui a imm => Sys2Proof.Machine.execLui a imm s
  | .addi a b imm => Sys2Proof.Machine.execAddi a b imm s
  | .add a b c => Sys2Proof.Machine.execAdd a b c s
  | .sub a b c => Sys2Proof.Machine.execSub a b c s
  | .and a b c => Sys2Proof.Machine.execAnd a b c s
  | .or a b c => Sys2Proof.Machine.execOr a b c s
  | .xor a b c => Sys2Proof.Machine.execXor a b c s
  | .lw a b imm => Sys2Proof.Machine.execLw a b imm s
  | .sw a b imm => Sys2Proof.Machine.execSw a b imm s
  | .lbu a b imm => Sys2Proof.Machine.execLbu a b imm s
  | .sb a b imm => Sys2Proof.Machine.execSb a b imm s
  | .fMov a b => Sys2Proof.Machine.execFMov a b s
  | .fLi a imm => Sys2Proof.Machine.execFLi a imm s
  | .fLd a b imm => Sys2Proof.Machine.execFLd a b imm s
  | .fSt a b imm => Sys2Proof.Machine.execFSt a b imm s
  | .fLdr a b c => Sys2Proof.Machine.execFLdr a b c s
  | .fAdd a b c => Sys2Proof.Machine.execFAdd a b c s
  | .fSub a b c => Sys2Proof.Machine.execFSub a b c s
  | .fNeg a b => Sys2Proof.Machine.execFNeg a b s
  | .fMul a b c => Sys2Proof.Machine.execFMul a b c s
  | .fSqr a b => Sys2Proof.Machine.execFSqr a b s
  | .fInv a b => Sys2Proof.Machine.execFInv a b s
  | .fDiv a b c => Sys2Proof.Machine.execFDiv a b c s
  | .fPow a b c => Sys2Proof.Machine.execFPow a b c s
  | .fSqrt a b c => Sys2Proof.Machine.execFSqrt a b c s
  | .fEq a b c => Sys2Proof.Machine.execFEq a b c s
  | .qMov a b => Sys2Proof.Machine.execQMov a b s
  | .qPack a b c => Sys2Proof.Machine.execQPack a b c s
  | .qGet a b n => Sys2Proof.Machine.execQGet a b n s
  | .qFrob a b n => Sys2Proof.Machine.execQFrob a b n s
  | .qSgn0 a b => Sys2Proof.Machine.execQSgn0 a b s
  | .qAdd a b c => Sys2Proof.Machine.execQAdd a b c s
  | .qSub a b c => Sys2Proof.Machine.execQSub a b c s
  | .qNeg a b => Sys2Proof.Machine.execQNeg a b s
  | .qMul a b c => Sys2Proof.Machine.execQMul a b c s
  | .qSqr a b => Sys2Proof.Machine.execQSqr a b s
  | .qInv a b => Sys2Proof.Machine.execQInv a b s
  | .qDiv a b c => Sys2Proof.Machine.execQDiv a b c s
  | .qPow a b c => Sys2Proof.Machine.execQPow a b c s
  | .qSqrt a b => Sys2Proof.Machine.execQSqrt a b s
  | .qEq a b c => Sys2Proof.Machine.execQEq a b c s
  | .qMulnr a b => Sys2Proof.Machine.execQMulnr a b s
  | .sMov a b => Sys2Proof.Machine.execSMov a b s
  | .sPack a b c d => Sys2Proof.Machine.execSPack a b c d s
  | .sGet a b n => Sys2Proof.Machine.execSGet a b n s
  | .sMul1 a b c => Sys2Proof.Machine.execSMul1 a b c s
  | .sMul01 a b c d => Sys2Proof.Machine.execSMul01 a b c d s
  | .sAdd a b c => Sys2Proof.Machine.execSAdd a b c s
  | .sSub a b c => Sys2Proof.Machine.execSSub a b c s
  | .sNeg a b => Sys2Proof.Machine.execSNeg a b s
  | .sMul a b c => Sys2Proof.Machine.execSMul a b c s
  | .sSqr a b => Sys2Proof.Machine.execSSqr a b s
  | .sInv a b => Sys2Proof.Machine.execSInv a b s
  | .sDiv a b c => Sys2Proof.Machine.execSDiv a b c s
  | .sPow a b c => Sys2Proof.Machine.execSPow a b c s
  | .sEq a b c => Sys2Proof.Machine.execSEq a b c s
  | .sMulnr a b => Sys2Proof.Machine.execSMulnr a b s
  | .tMov a b => Sys2Proof.Machine.execTMov a b s
  | .tPack a b c => Sys2Proof.Machine.execTPack a b c s
  | .tGet a b n => Sys2Proof.Machine.execTGet a b n s
  | .tFrob a b n => Sys2Proof.Machine.execTFrob a b n s
  | .tConj a b => Sys2Proof.Machine.execTConj a b s
  | .tAdd a b c => Sys2Proof.Machine.execTAdd a b c s
  | .tSub a b c => Sys2Proof.Machine.execTSub a b c s
  | .tNeg a b => Sys2Proof.Machine.execTNeg a b s
  | .tMul a b c => Sys2Proof.Machine.execTMul a b c s
  | .tSqr a b => Sys2Proof.Machine.execTSqr a b s
  | .tInv a b => Sys2Proof.Machine.execTInv a b s
  | .tDiv a b c => Sys2Proof.Machine.execTDiv a b c s
  | .tPow a b c => Sys2Proof.Machine.execTPow a b c s
  | .tMul014 a b c d e => Sys2Proof.Machine.execTMul014 a b c d e s
  | .tEq a b c => Sys2Proof.Machine.execTEq a b c s
  | .g1Mov a b => Sys2Proof.Machine.execG1Mov a b s
  | .g1Pack a b c d => Sys2Proof.Machine.execG1Pack a b c d s
  | .g1Getaff a b c => Sys2Proof.Machine.execG1Getaff a b c s
  | .g1Id a => Sys2Proof.Machine.execG1Id a s
  | .g1Gen a => Sys2Proof.Machine.execG1Gen a s
  | .g1Add a b c => Sys2Proof.Machine.execG1Add a b c s
  | .g1Sub a b c => Sys2Proof.Machine.execG1Sub a b c s
  | .g1Neg a b => Sys2Proof.Machine.execG1Neg a b s
  | .g1Dbl a b => Sys2Proof.Machine.execG1Dbl a b s
  | .g1Mul a b c => Sys2Proof.Machine.execG1Mul a b c s
  | .g1Mulu a b c => Sys2Proof.Machine.execG1Mulu a b c s
  | .g1Mulmx a b => Sys2Proof.Machine.execG1Mulmx a b s
  | .g1Eq a b c => Sys2Proof.Machine.execG1Eq a b c s
  | .g1Isid a b => Sys2Proof.Machine.execG1Isid a b s
  | .g1Oncurve a b => Sys2Proof.Machine.execG1Oncurve a b s
  | .g1Insub a b => Sys2Proof.Machine.execG1Insub a b s
  | .g1Valid a b => Sys2Proof.Machine.execG1Valid a b s
  | .g1Clrcof a b => Sys2Proof.Machine.execG1Clrcof a b s
  | .g1Phi a b => Sys2Proof.Machine.execG1Phi a b s
  | .g2Mov a b => Sys2Proof.Machine.execG2Mov a b s
  | .g2Pack a b c d => Sys2Proof.Machine.execG2Pack a b c d s
  | .g2Getaff a b c => Sys2Proof.Machine.execG2Getaff a b c s
  | .g2Id a => Sys2Proof.Machine.execG2Id a s
  | .g2Gen a => Sys2Proof.Machine.execG2Gen a s
  | .g2Add a b c => Sys2Proof.Machine.execG2Add a b c s
  | .g2Sub a b c => Sys2Proof.Machine.execG2Sub a b c s
  | .g2Neg a b => Sys2Proof.Machine.execG2Neg a b s
  | .g2Dbl a b => Sys2Proof.Machine.execG2Dbl a b s
  | .g2Mul a b c => Sys2Proof.Machine.execG2Mul a b c s
  | .g2Mulu a b c => Sys2Proof.Machine.execG2Mulu a b c s
  | .g2Mulmx a b => Sys2Proof.Machine.execG2Mulmx a b s
  | .g2Eq a b c => Sys2Proof.Machine.execG2Eq a b c s
  | .g2Isid a b => Sys2Proof.Machine.execG2Isid a b s
  | .g2Oncurve a b => Sys2Proof.Machine.execG2Oncurve a b s
  | .g2Insub a b => Sys2Proof.Machine.execG2Insub a b s
  | .g2Valid a b => Sys2Proof.Machine.execG2Valid a b s
  | .g2Clrcof a b => Sys2Proof.Machine.execG2Clrcof a b s
  | .g2Psi a b => Sys2Proof.Machine.execG2Psi a b s
  | .g2Psi2 a b => Sys2Proof.Machine.execG2Psi2 a b s
  | .tCycsqr a b => Sys2Proof.Machine.execTCycsqr a b s
  | .tCycexp a b c => Sys2Proof.Machine.execTCycexp a b c s
  | .tFinalexp a b => Sys2Proof.Machine.execTFinalexp a b s
  | .pairMl a b c => Sys2Proof.Machine.execPairMl a b c s
  | .pair a b c => Sys2Proof.Machine.execPair a b c s
  | .h2cDst b c => Sys2Proof.Machine.execH2cDst b c s
  | .h2cXmd a b c d => Sys2Proof.Machine.execH2cXmd a b c d s
  | .h2cH2f a b c d => Sys2Proof.Machine.execH2cH2f a b c d s
  | .h2cSwu a b => Sys2Proof.Machine.execH2cSwu a b s
  | .h2cIso a b => Sys2Proof.Machine.execH2cIso a b s
  | .h2cMap a b c => Sys2Proof.Machine.execH2cMap a b c s
  | .h2cHash a b c => Sys2Proof.Machine.execH2cHash a b c s
  | .blsPk a b => Sys2Proof.Machine.execBlsPk a b s
  | .blsSign a b c d e => Sys2Proof.Machine.execBlsSign a b c d e s
  | .blsSignp a b c => Sys2Proof.Machine.execBlsSignp a b c s
  | .blsVerify a b c d => Sys2Proof.Machine.execBlsVerify a b c d s
  | .blsVerifyb a b c d e => Sys2Proof.Machine.execBlsVerifyb a b c d e s
  | .blsAggpk a b c => Sys2Proof.Machine.execBlsAggpk a b c s
  | .blsAggsig a b c => Sys2Proof.Machine.execBlsAggsig a b c s
  | .blsVerifyn a b c d e n => Sys2Proof.Machine.execBlsVerifyn a b c d e n s
  | .kMov a b => Sys2Proof.Machine.execKMov a b s
  | .kLi a imm => Sys2Proof.Machine.execKLi a imm s
  | .kLd a b c => Sys2Proof.Machine.execKLd a b c s
  | .kLdsk a b c => Sys2Proof.Machine.execKLdsk a b c s
  | .kSt a b imm => Sys2Proof.Machine.execKSt a b imm s
  | .kValid a b => Sys2Proof.Machine.execKValid a b s
  | .g1Ldc a b imm => Sys2Proof.Machine.execG1Ldc a b imm s
  | .g1Ldu a b imm => Sys2Proof.Machine.execG1Ldu a b imm s
  | .g1Stc a b imm => Sys2Proof.Machine.execG1Stc a b imm s
  | .g1Stu a b imm => Sys2Proof.Machine.execG1Stu a b imm s
  | .g2Ldc a b imm => Sys2Proof.Machine.execG2Ldc a b imm s
  | .g2Ldu a b imm => Sys2Proof.Machine.execG2Ldu a b imm s
  | .g2Stc a b imm => Sys2Proof.Machine.execG2Stc a b imm s
  | .g2Stu a b imm => Sys2Proof.Machine.execG2Stu a b imm s
  | .g1Staffn a b c => Sys2Proof.Machine.execG1Staffn a b c s
  | .g2Staffn a b c => Sys2Proof.Machine.execG2Staffn a b c s
  | .g1Precomp a n => Sys2Proof.Machine.execG1Precomp a n s
  | .g2Precomp a n => Sys2Proof.Machine.execG2Precomp a n s

end Sys2Proof.Machine
end

