-- ==== Sys2Proof/Machine/Fetch.lean ====
section
/-! DEFINITION. Fetch and decode, the two checks that come before every instruction (spec/60_exceptions.md R489),
and how a word is placed where the next fetch reads it. -/

namespace Sys2Proof.Machine

open Sys2Proof

/-- The instruction at `pc`: FetchRange when there is no such word (R474), IllegalInstruction with the word when it
is no instruction (R472). -/
def fetchInstr (s : State) : Res Instr := do
  let w ← fetchWord s
  match decode w with
  | .ok i => .ok i
  | .error _ => .error ⟨.illegalInstruction, w⟩

/-- A running state whose next fetch reads `w`: the word is stored at IMEM[pc], at index 0 when `pc` is outside
IMEM, and the run state is BUSY (assumption log 5). -/
def placeWord (s : State) (w : Word) : State :=
  let pc := if s.pc.toNat < Config.imemWords then s.pc else 0
  { s with pc := pc, imem := cellsWrite s.imem pc.toNat w, status := .busy }

end Sys2Proof.Machine
end

