-- ==== Sys2Proof/Machine/Step.lean ====
section
/-! DEFINITION. One step of the sequencer (spec/10_state.md R45, spec/20_memory.md R80): fetch, decode, execute,
while the engine is BUSY; in every other run state the sequencer executes nothing. -/

namespace Sys2Proof.Machine

open Sys2Proof

/-- One step. An exception at fetch or decode is taken (spec/60_exceptions.md R490); a state that is not BUSY stays
as it is (assumption log 4). -/
def step (s : State) : Host.Outcome State Fault Refusal :=
  match s.status with
  | .busy =>
    match fetchInstr s with
    | .ok i => exec i s
    | .error e => .next (takeException s e)
  | .idle => .next s
  | .done => .next s
  | .error => .next s

/-- `s` with the word of the low `nbits` bits of `w` where `step` fetches next, and running (assumption log 5). -/
def State.withFetchWord (s : State) (nbits w : Nat) : State := placeWord s (BitVec.ofNat 32 (w % 2 ^ nbits))

end Sys2Proof.Machine
end

