-- ==== Sys2Proof/Machine/HostWindow.lean ====
section
/-! DEFINITION. The host window (spec/20_memory.md R77, R78, R86, R87; spec/10_state.md R42 to R50) and the
interrupt outputs (spec/60_exceptions.md R493). Host accesses are transitions of their own, between steps
(assumption log 6); no instruction reaches the window. -/

namespace Sys2Proof.Machine

open Sys2Proof

/-- `STATUS` as a word (R44). -/
def statusWord (st : RunState) : Word :=
  match st with
  | .idle => 0
  | .busy => 1
  | .done => 2
  | .error => 3

/-- Window offset of the IMEM image (R77). -/
def imemImage : Nat := 0x4000

/-- Window offset of the DMEM image (R77). -/
def dmemImage : Nat := 0x10000

/-- Whether an offset lies in the IMEM image. -/
def inImem (off : Nat) : Bool := imemImage ≤ off && off < imemImage + 4 * Config.imemWords

/-- Whether an offset lies in the DMEM image. -/
def inDmem (off : Nat) : Bool := dmemImage ≤ off && off < dmemImage + Config.dmemBytes

/-- A host register read (R42); every offset of the register range that is not listed reads 0. -/
def readHostReg (s : State) (off : Nat) : Word :=
  match off with
  | 0x04 => statusWord s.status
  | 0x08 => s.startPc
  | 0x0C => s.ecause &&& 0xFF
  | 0x10 => s.epc
  | 0x14 => s.einfo
  | 0x18 => s.intrEnable &&& 3
  | 0x1C => s.intrState &&& 3
  | _ => 0

/-- A host read of the 32-bit word at a byte offset (R77): reads of the memory images while BUSY return 0 (R78). -/
def hostRead (s : State) (off : Nat) : Word :=
  if off % 4 ≠ 0 then 0
  else if inImem off then
    (if s.status = .busy then 0 else cellsRead s.imem ((off - imemImage) / 4))
  else if inDmem off then
    (if s.status = .busy then 0 else BitVec.ofNat 32 (os2ip (readBytes s.dmem (off - dmemImage) 4)))
  else readHostReg s off

/-- START (R43). -/
def startRun (s : State) : State :=
  { s with pc := s.startPc, ecause := 0, epc := 0, einfo := 0, status := .busy }

/-- A host register write (R42, R43, R49, R50); read-only registers and unlisted offsets ignore it, and while BUSY
so do `CMD` and `START_PC` (R78). -/
def writeHostReg (s : State) (off : Nat) (v : Word) : State :=
  match off with
  | 0x00 => if s.status = .busy then s else if v.getLsbD 0 then startRun s else s
  | 0x08 => if s.status = .busy then s else { s with startPc := v }
  | 0x18 => { s with intrEnable := v &&& 3 }
  | 0x1C => { s with intrState := s.intrState &&& ~~~v }
  | _ => s

/-- A host write of a 32-bit word at a byte offset (R77, R78, R86, R87). -/
def hostWrite (s : State) (off : Nat) (v : Word) : State :=
  if off % 4 ≠ 0 then s
  else if inImem off then
    (if s.status = .busy then s else { s with imem := cellsWrite s.imem ((off - imemImage) / 4) v })
  else if inDmem off then
    (if s.status = .busy then s
     else setDmem s (writeBytes s.dmem (off - dmemImage) (i2osp v.toNat 4)))
  else writeHostReg s off v

/-- A step of the sequencer during which the host writes `INTR_STATE`: the clear comes first, so a bit the
sequencer sets in the same step stays set (R50). -/
def stepClearing (s : State) (v : Word) : Host.Outcome State Fault Refusal := step (hostWrite s 0x1C v)

/-- `irq_done` (R493). -/
def irqDone (s : State) : Bool := s.intrState.getLsbD 0 && s.intrEnable.getLsbD 0

/-- `irq_error` (R493). -/
def irqError (s : State) : Bool := s.intrState.getLsbD 1 && s.intrEnable.getLsbD 1

/-- The reset event (spec/70_reset_and_hazards.md R510), from any state. -/
def resetEvent (_s : State) : State := State.reset

end Sys2Proof.Machine
end

