-- ==== Sys2Proof/Safety.lean ====
section
/-! DEFINITION. The terms statements about the machine use: the invariant of its states, the legal causes, and
what an instruction leaves unchanged. -/

namespace Sys2Proof.Machine

open Sys2Proof

/-- The values `ECAUSE` takes (spec/60_exceptions.md R471): 0, or the code of a cause that some rule raises. -/
def LegalEcause (w : Word) : Prop :=
  w = 0 ∨ ∃ c : Cause, c ≠ .noDivisorIndex ∧ w = BitVec.ofNat 32 (causeCode c)

/-- What the host registers record of the last run (spec/10_state.md R46): nothing unless it ended in an exception,
and then a cause and the `pc` it stopped at (spec/60_exceptions.md R490). -/
def RunRecord (s : State) : Prop :=
  (s.status ≠ .error → s.ecause = 0 ∧ s.epc = 0 ∧ s.einfo = 0) ∧
  (s.status = .error → s.ecause ≠ 0 ∧ s.epc = s.pc)

/-- The invariant of the machine's states: both memories in canonical form, the tag within its capacity
(spec/10_state.md R41), the stored slot of `r0` zero (R31), reserved bits of the interrupt registers zero (R49,
R50), a legal cause, and a true record of the last run. -/
structure Inv (s : State) : Prop where
  dmem : Memory.wf s.dmem
  imem : Cells.wf Config.imemWords s.imem
  tag : s.dstBuf.length ≤ Config.dstMax
  zeroReg : s.r.get 0 = 0
  intrEnable : s.intrEnable &&& 3 = s.intrEnable
  intrState : s.intrState &&& 3 = s.intrState
  cause : LegalEcause s.ecause
  record : RunRecord s

/-- The registers and the bytes of DMEM an instruction may write: for each file the numbers of its destination
registers, and `memLen` bytes of DMEM from address `memAt` on. -/
structure Writes where
  r : List RegIdx := []
  f : List RegIdx := []
  q : List RegIdx := []
  s : List RegIdx := []
  t : List RegIdx := []
  g : List RegIdx := []
  h : List RegIdx := []
  k : List RegIdx := []
  memAt : Nat := 0
  memLen : Nat := 0

/-- No host register but those named and nothing of IMEM changes (spec/10_state.md R42, R47): the run state, the
record of the last run, the interrupt registers, `START_PC` and IMEM are as before. -/
structure SameControl (s u : State) : Prop where
  imem : u.imem = s.imem
  startPc : u.startPc = s.startPc
  intrEnable : u.intrEnable = s.intrEnable
  intrState : u.intrState = s.intrState
  status : u.status = s.status
  ecause : u.ecause = s.ecause
  epc : u.epc = s.epc
  einfo : u.einfo = s.einfo

/-- Between `s₀` and `u` only what `w` lists changes, the tag and `pc` apart: every other register of every file
reads as before, and so does every other byte of DMEM. -/
structure Frame (w : Writes) (s₀ u : State) : Prop where
  r : ∀ i, i ∉ w.r → readR u i = readR s₀ i
  f : ∀ i, i ∉ w.f → readF u i = readF s₀ i
  q : ∀ i, i ∉ w.q → readQ u i = readQ s₀ i
  s : ∀ i, i ∉ w.s → readS u i = readS s₀ i
  t : ∀ i, i ∉ w.t → readT u i = readT s₀ i
  g : ∀ i, i ∉ w.g → readG u i = readG s₀ i
  h : ∀ i, i ∉ w.h → readH u i = readH s₀ i
  k : ∀ i, i ∉ w.k → readK u i = readK s₀ i
  dmem : ∀ x, x < w.memAt ∨ w.memAt + w.memLen ≤ x → cellsRead u.dmem x = cellsRead s₀.dmem x
  control : SameControl s₀ u

/-- `i` executed in `s` answers a next state at index `target`, with the tag as before, in which only what `w` lists
has changed and `post` holds. -/
def RunsTo (i : Instr) (s : State) (target : Word) (w : Writes) (post : State → Prop) : Prop :=
  ∃ u, exec i s = .next u ∧ u.pc = target ∧ u.dstBuf = s.dstBuf ∧ Frame w s u ∧ post u

/-- `RunsTo` the following index (spec/10_state.md R32). -/
def Runs (i : Instr) (s : State) (w : Writes) (post : State → Prop) : Prop := RunsTo i s (s.pc + 1) w post

/-- `s` after the exception `c` with information word `info` (spec/60_exceptions.md R490): the five places R490 names,
and nothing else. -/
def trapped (s : State) (c : Cause) (info : Word) : State :=
  { s with
    ecause := BitVec.ofNat 32 (causeCode c)
    epc := s.pc
    einfo := info
    status := .error
    intrState := s.intrState ||| 2 }

/-- `i` executed in `s` takes the exception `c` with information word `info`; nothing else is different from `s`
(spec/60_exceptions.md R490, R491). -/
def Traps (i : Instr) (s : State) (c : Cause) (info : Word) : Prop := exec i s = .next (trapped s c info)

/-- A value an instruction writes to `r[a]`, as it reads afterwards: `r0` stays 0 (spec/10_state.md R31). -/
def asWritten (a : RegIdx) (v : Word) : Word := if a = 0 then 0 else v

/-- `r[a]` has received 1 or 0 as `c` holds or not (spec/10_state.md R33). -/
def Answers (u : State) (a : RegIdx) (c : Prop) : Prop :=
  (c → readR u a = asWritten a 1) ∧ (¬c → readR u a = asWritten a 0)

/-- An access of `n` bytes at `addr` passes the range check (spec/20_memory.md R72, R74). -/
def Fits (addr : Word) (n : Nat) : Prop := n = 0 ∨ addr.toNat + n ≤ Config.dmemBytes

/-- `DMEM[addr .. addr+n)`. -/
def bytesAt (s : State) (addr : Word) (n : Nat) : List Byte := readBytes s.dmem addr.toNat n

/-- `OS2IP(DMEM[addr .. addr+n))`. -/
def intAt (s : State) (addr : Word) (n : Nat) : Nat := os2ip (bytesAt s addr n)

/-- Repeated multiplication: `a^n` as spec/00_scope.md R9 defines it, with `a^0` the unit. -/
def repMul {α : Type} (mul : α → α → α) (one a : α) : Nat → α
  | 0 => one
  | n + 1 => mul (repMul mul one a n) a

/-- `q` is the double of `p` (spec/45_g1.md R302), the quotient `λ` given by its defining equation. -/
def DoublesTo {F : Type} (ops : FieldOps F) (p q : Point F) : Prop :=
  match p with
  | .O => q = .O
  | .aff x y =>
    (y = ops.zero → q = .O) ∧
    (y ≠ ops.zero → ∃ l x3 y3, q = .aff x3 y3 ∧
      ops.mul l (ops.scale 2 y) = ops.scale 3 (ops.mul x x) ∧
      x3 = ops.sub (ops.mul l l) (ops.scale 2 x) ∧
      y3 = ops.sub (ops.mul l (ops.sub x x3)) y)

/-- `q` is the sum of `p1` and `p2` (spec/45_g1.md R303), the quotient `λ` given by its defining equation. -/
def AddsTo {F : Type} (ops : FieldOps F) (p1 p2 q : Point F) : Prop :=
  match p1, p2 with
  | .O, b => q = b
  | .aff x y, .O => q = .aff x y
  | .aff x1 y1, .aff x2 y2 =>
    (x1 = x2 → y1 = y2 → DoublesTo ops (.aff x1 y1) q) ∧
    (x1 = x2 → y1 ≠ y2 → q = .O) ∧
    (x1 ≠ x2 → ∃ l x3 y3, q = .aff x3 y3 ∧
      ops.mul l (ops.sub x2 x1) = ops.sub y2 y1 ∧
      x3 = ops.sub (ops.sub (ops.mul l l) x1) x2 ∧
      y3 = ops.sub (ops.mul l (ops.sub x1 x3)) y1)

/-- `q` is the negative of `p` (spec/45_g1.md R304). -/
def NegatesTo {F : Type} (ops : FieldOps F) (p q : Point F) : Prop :=
  match p with
  | .O => q = .O
  | .aff x y => q = .aff x (ops.neg y)

/-- `loop acc d n` is the value of `acc` when the loop of spec/45_g1.md R305 ends, started with these three. -/
def IsMulLoop {F : Type} [DecidableEq F] (ops : FieldOps F) (loop : Point F → Point F → Nat → Point F) : Prop :=
  (∀ acc d, loop acc d 0 = acc) ∧
  ∀ acc d n, 0 < n →
    loop acc d n = loop (if n % 2 = 1 then ptAdd ops acc d else acc) (ptDbl ops d) (n / 2)

/-- `y² = x³ + 4` modulo `p`, or the identity (spec/45_g1.md R301). -/
def OnCurve1 (a : Point Fp) : Prop :=
  match a with
  | .O => True
  | .aff x y => y.val * y.val % fieldP = (x.val * x.val * x.val + 4) % fieldP

/-- `y² = x³ + (4,4)` in Fp2, or the identity (spec/46_g2.md R350). -/
def OnCurve2 (a : Point Fp2) : Prop :=
  match a with
  | .O => True
  | .aff x y => qMul y y = qAdd (qMul (qMul x x) x) (mkFp2 4 4)

/-- The test of spec/45_g1.md R309. -/
def InSubgroup1 (a : Point Fp) : Prop :=
  a = .O ∨ NegatesTo opsFp (mul1 (mul1 a xAbs) xAbs) (phi a)

/-- The test of spec/46_g2.md R354. -/
def InSubgroup2 (a : Point Fp2) : Prop := a = .O ∨ NegatesTo opsFp2 (mul2 a xAbs) (psi a)

/-- The integer of the 48 bytes of `compress1` (spec/45_g1.md R312). -/
def codeC1 (a : Point Fp) : Nat :=
  match a with
  | .O => 0xC0 * 256 ^ 47
  | .aff x y => 2 ^ 383 + (if (fieldP - 1) / 2 < y.val then 2 ^ 381 else 0) + x.val

/-- The integer of the 96 bytes of `uncompressed1` (spec/45_g1.md R313). -/
def codeU1 (a : Point Fp) : Nat :=
  match a with
  | .O => 0x40 * 256 ^ 95
  | .aff x y => x.val * 256 ^ 48 + y.val

/-- The sign of spec/46_g2.md R356, from the imaginary part unless that is zero. -/
def signBit2 (y : Fp2) : Nat :=
  if y.c1.val = 0 then (if (fieldP - 1) / 2 < y.c0.val then 1 else 0)
  else (if (fieldP - 1) / 2 < y.c1.val then 1 else 0)

/-- The integer of the 96 bytes of `compress2` (spec/46_g2.md R356). -/
def codeC2 (a : Point Fp2) : Nat :=
  match a with
  | .O => 0xC0 * 256 ^ 95
  | .aff x y => (2 ^ 383 + signBit2 y * 2 ^ 381 + x.c1.val) * 256 ^ 48 + x.c0.val

/-- The integer of the 192 bytes of `uncompressed2` (spec/46_g2.md R357). -/
def codeU2 (a : Point Fp2) : Nat :=
  match a with
  | .O => 0x40 * 256 ^ 191
  | .aff x y => ((x.c1.val * 256 ^ 48 + x.c0.val) * 256 ^ 48 + y.c1.val) * 256 ^ 48 + y.c0.val

/-- Both operands of a pairing pass the check of spec/47_pairing.md R401. -/
def Pairable (p : Point Fp) (q : Point Fp2) : Prop :=
  p ≠ .O ∧ q ≠ .O ∧ OnCurve1 p ∧ InSubgroup1 p ∧ OnCurve2 q ∧ InSubgroup2 q

end Sys2Proof.Machine
end

