-- ==== Sys2Proof/WellFormed.lean ====
section
/-! DEFINITION. Which instructions are well formed. A register field admits all sixteen values (spec/30_encoding.md
R104) and `imm16` every value, so the only conditions are the ranges R105 states for the immediate `n` of the
three coefficient reads. -/

namespace Sys2Proof

/-- The range of `n` (R105, R106, R113): `Q.GET` and `T.GET` take 0 and 1, `S.GET` takes 0 to 2; every other
instruction is well formed with every operand. -/
def Instr.WellFormed (i : Instr) : Bool :=
  match i with
  | .qGet _ _ n => n.toNat ≤ 1
  | .sGet _ _ n => n.toNat ≤ 2
  | .tGet _ _ n => n.toNat ≤ 1
  | _ => true

end Sys2Proof
end

