-- ==== Sys2Proof/Certificates/Slice0/Obligations.lean ====
section
/-! DEFINITION. The statements for the provers. Each docstring names the rules of spec/ it formalises; where a
clause rests on a choice of the model it says so and names the log entry. Memory addresses are computed with the
meanings' own `effAddr`, pinned in `IntegerLoads`. -/

open Sys2Proof Sys2Proof.Machine

/-! Encoding. -/

/-- Decoding the word of a well-formed instruction gives it back, with every operand at every value (R101, R102,
R112, R113). -/
def Obligations.DecodeInvertsEncode : Prop :=
  ∀ i : Instr, i.WellFormed = true → decode (encode i) = .ok i

/-- The decoder accepts exactly the words R113 accepts: those that match a row of the opcode map, with `n` in range
for `Q.GET`, `S.GET` and `T.GET`; no word matches two rows; and a word that decodes is the word of exactly the
instruction it decodes to, which is well formed (R106, R107: no encoding is a silent alias). -/
def Obligations.DecoderAcceptsExactlyTheOpcodeMap : Prop :=
  (opcodeTable.length = 158 ∧
   (∀ w : Word, (∃ i, decode w = .ok i) ↔
     (∃ row ∈ opcodeTable, w &&& row.1 = row.2) ∧
     (w.toNat / 2 ^ 24 = 0x32 → w.toNat % 16 ≤ 1) ∧
     (w.toNat / 2 ^ 24 = 0x42 → w.toNat % 16 ≤ 2) ∧
     (w.toNat / 2 ^ 24 = 0x52 → w.toNat % 16 ≤ 1)) ∧
   ∀ w : Word, ∀ x ∈ opcodeTable, ∀ y ∈ opcodeTable, w &&& x.1 = x.2 → w &&& y.1 = y.2 → x = y) ∧
  (∀ (w : Word) (i : Instr), decode w = .ok i → i.WellFormed = true ∧ encode i = w)

/-- Words printed in the examples of the instruction rules decode to the instructions printed beside them, one of
each family (a sanity check). -/
def Obligations.ExampleWordsDecode : Prop :=
  decode 0x04F00005 = .ok (.jal 15 5) ∧ decode 0x0612FFFD = .ok (.beq 1 2 0xFFFD) ∧
  decode 0x1956FFFC = .ok (.sw 5 6 0xFFFC) ∧ decode 0x2D214000 = .ok (.fSqrt 2 1 4) ∧
  decode 0x32120001 = .ok (.qGet 1 2 1) ∧ decode 0x44123400 = .ok (.sMul01 1 2 3 4) ∧
  decode 0x5D123450 = .ok (.tMul014 1 2 3 4 5) ∧ decode 0x6D120002 = .ok (.g1Insub 1 2) ∧
  decode 0x7F210001 = .ok (.g2Psi2 2 1) ∧ decode 0x83123000 = .ok (.pairMl 1 2 3) ∧
  decode 0x91123400 = .ok (.h2cXmd 1 2 3 4) ∧ decode 0xA7114230 = .ok (.blsVerifyn 1 1 4 2 3 0) ∧
  decode 0xB4120040 = .ok (.kSt 1 2 0x40) ∧ decode 0xC9123000 = .ok (.g2Staffn 1 2 3)

/-! The sequencer. -/

/-- While BUSY, a step runs the instruction the word at IMEM[pc] decodes to (R45, R100, R113); nothing is added
around it: each meaning sets `pc` itself (R32). -/
def Obligations.StepRunsDecodedInstruction : Prop :=
  ∀ (s : State) (i : Instr), s.status = .busy → s.pc.toNat < Config.imemWords →
    decode (cellsRead s.imem s.pc.toNat) = .ok i → step s = exec i s

/-- A fetch outside IMEM takes FetchRange with the `pc`, and a word that is no instruction takes
IllegalInstruction with the word (R472, R474), in that order of priority (R489). -/
def Obligations.FetchAndDecodeFaults : Prop :=
  ∀ s : State, s.status = .busy →
    (Config.imemWords ≤ s.pc.toNat → step s = .next (trapped s .fetchRange s.pc)) ∧
    (s.pc.toNat < Config.imemWords → (∀ i, decode (cellsRead s.imem s.pc.toNat) ≠ .ok i) →
      step s = .next (trapped s .illegalInstruction (cellsRead s.imem s.pc.toNat)))

/-- Every step of every state, and every instruction in every state, answers a next state: an exception is a state
the machine goes to, never a fault or a refusal of the model (R470, R490). A state that is not BUSY is not changed by
the sequencer (R45); that `step` answers the same state there, rather than nothing, is the model's choice (assumption
log 4). -/
def Obligations.EveryStepAnswersANextState : Prop :=
  ((∀ s : State, ∃ u, step s = .next u) ∧ ∀ (i : Instr) (s : State), ∃ u, exec i s = .next u) ∧
  (∀ s : State, s.status ≠ .busy → step s = .next s)

/-- From BUSY a step stays BUSY, or ends DONE on a `HALT`, or ends ERROR with a cause (R44). In the last case it records
a cause of R471 other than the reserved NoDivisorIndex (R486), the `pc` and an information word that is 0 but for the
four causes R471 gives one, and changes nothing else: exceptions are precise (R490, R491). -/
def Obligations.RunsEndByHaltOrPreciseException : Prop :=
  (∀ s u : State, s.status = .busy → step s = .next u →
     u.status = .busy ∨
     (u.status = .done ∧ s.pc.toNat < Config.imemWords ∧ decode (cellsRead s.imem s.pc.toNat) = .ok .halt) ∨
     (u.status = .error ∧ u.ecause ≠ 0)) ∧
  (∀ s u : State, s.status = .busy → step s = .next u → u.status = .error →
     ∃ c info, u = trapped s c info ∧ c ≠ .noDivisorIndex ∧
       (c ≠ .illegalInstruction → c ≠ .fetchRange → c ≠ .dmemRange → c ≠ .softwareFail → info = 0))

/-- No instruction writes IMEM, `START_PC` or `INTR_ENABLE`; the other host registers change by `HALT` and by
exceptions only (R42, R47); the tag changes by `H2C.DST` only (R41). -/
def Obligations.InstructionsLeaveTheHostSideAlone : Prop :=
  ∀ (i : Instr) (s u : State), exec i s = .next u →
    (SameControl s u ∨ (i = .halt ∧ u = { s with status := .done, intrState := s.intrState ||| 1 }) ∨
      ∃ c info, u = trapped s c info) ∧
    ((∀ b c, i ≠ .h2cDst b c) → u.dstBuf = s.dstBuf)

/-- The state after reset (R52): every register zero or the identity, no tag, IDLE, the host registers 0. (That the
memories then read as zero is the model's choice, assumption log 2, and not stated here.) -/
def Obligations.ResetLeavesTheValuesOfR52 : Prop :=
  (∀ i, readR State.reset i = 0 ∧ (readF State.reset i).val = 0 ∧ readQ State.reset i = zero2 ∧
    readS State.reset i = zero6 ∧ readT State.reset i = zero12 ∧ readG State.reset i = .O ∧
    readH State.reset i = .O ∧ readK State.reset i = 0) ∧
  State.reset.pc = 0 ∧ State.reset.dstBuf = [] ∧ State.reset.status = .idle ∧
  hostRead State.reset 0x04 = 0 ∧ hostRead State.reset 0x08 = 0 ∧ hostRead State.reset 0x0C = 0 ∧
  hostRead State.reset 0x10 = 0 ∧ hostRead State.reset 0x14 = 0 ∧ hostRead State.reset 0x18 = 0 ∧
  hostRead State.reset 0x1C = 0 ∧ ∀ s, resetEvent s = State.reset

/-- The invariant holds after reset. -/
def Obligations.ResetSatisfiesTheInvariant : Prop :=
  Inv State.reset

/-- Every step keeps the invariant: the memories keep their canonical form, the tag its bound (R41), `r0` its zero
(R31), the interrupt registers their reserved zeros (R49, R50), `ECAUSE` a value of R471, and the record of the last
run stays true (R46, R490). -/
def Obligations.EveryStepKeepsTheInvariant : Prop :=
  ∀ s u : State, Inv s → step s = .next u → Inv u

/-- Every host write keeps it too. -/
def Obligations.HostWritesKeepTheInvariant : Prop :=
  ∀ (s : State) (off : Nat) (v : Word), Inv s → Inv (hostWrite s off v)

/-! Byte strings and constants. -/

/-- `OS2IP` reads the big-endian digits, and `I2OSP(v, n)` is the string of `n` bytes that reads back as `v` (R8). -/
def Obligations.ByteStringsAreBigEndian : Prop :=
  os2ip [] = 0 ∧
  (∀ (b : Byte) (l : List Byte), os2ip (b :: l) = b.toNat * 256 ^ l.length + os2ip l) ∧
  (∀ v n : Nat, v < 256 ^ n → (i2osp v n).length = n ∧ os2ip (i2osp v n) = v) ∧
  ∀ l : List Byte, i2osp (os2ip l) l.length = l

/-- The constants satisfy the identities that pin them (R10 to R14): the moduli in the curve parameter, the
generators on their curves, the cube root of unity and the endomorphism constants, the eight roots of unity, and
the Frobenius coefficients as the powers of `ξ = (1,1)` that define them. The coordinates of the generators are
the integers of R11, and the coefficients of the four polynomials of the isogeny those of R16, by rising power.
The spec marks the values of R10 to R14 and R16 as from general knowledge and pins those of R10 to R14 by these
identities. -/
def Obligations.ConstantsMeetTheirPins : Prop :=
  orderR = xAbs ^ 4 - xAbs ^ 2 + 1 ∧
  3 * (fieldP + xAbs) = (xAbs + 1) ^ 2 * orderR ∧
  OnCurve1 gen1 ∧ OnCurve2 gen2 ∧
  (beta.val ^ 3 % fieldP = 1 ∧ beta.val ≠ 1) ∧ psi2C.val = beta.val ^ 2 % fieldP ∧
  qMul psiCX (qPow (mkFp2 1 1) ((fieldP - 1) / 3)) = one2 ∧
  qMul psiCY (qPow (mkFp2 1 1) ((fieldP - 1) / 2)) = one2 ∧
  (root 0 = one2 ∧ qMul (root 1) (root 1) = mkFp2 0 1 ∧
    (∀ k < 7, root (k + 1) = qMul (root k) (root 1)) ∧ 2 * (root 1).c0.val < fieldP) ∧
  (∀ k < 6, g6a k = qPow (mkFp2 1 1) ((fieldP ^ k - 1) / 3) ∧
    g6b k = qPow (mkFp2 1 1) ((2 * fieldP ^ k - 2) / 3)) ∧
  (∀ k < 12, g12 k = qPow (mkFp2 1 1) ((fieldP ^ k - 1) / 6)) ∧
  (∃ x y : Fp, gen1 = .aff x y ∧
    x.val = 0x17f1d3a73197d7942695638c4fa9ac0fc3688c4f9774b905a14e3a3f171bac586c55e83ff97a1aeffb3af00adb22c6bb ∧
    y.val = 0x08b3f481e3aaa0f1a09e30ed741d8ae4fcf5e095d5d00af600db18cb2c04b3edd03cc744a2888ae40caa232946c5e7e1) ∧
  (∃ x y : Fp2, gen2 = .aff x y ∧
    (x.c0.val, x.c1.val) =
      (0x024aa2b2f08f0a91260805272dc51051c6e47ad4fa403b02b4510b647ae3d1770bac0326a805bbefd48056c8c121bdb8,
       0x13e02b6052719f607dacd3a088274f65596bd0d09920b61ab5da61bbdc7f5049334cf11213945d57e5ac7d055d042b7e) ∧
    (y.c0.val, y.c1.val) =
      (0x0ce5d527727d6e118cc9cdc6da2e351aadfd9baa8cbdd3a76d429a695160d12c923ac9cc3baca289e193548608b82801,
       0x0606c4a02ea734cc32acd2b02bc28b99cb3e287e85a763af267492ab572e99ab3f370d275cec1da1aaa9075ff05f79be)) ∧
  let coefficients := fun (l : List Fp2) => l.map fun c => (c.c0.val, c.c1.val)
  coefficients isoXNum = [
    (0x05c759507e8e333ebb5b7a9a47d7ed8532c52d39fd3a042a88b58423c50ae15d5c2638e343d9c71c6238aaaaaaaa97d6,
     0x05c759507e8e333ebb5b7a9a47d7ed8532c52d39fd3a042a88b58423c50ae15d5c2638e343d9c71c6238aaaaaaaa97d6),
    (0, 0x11560bf17baa99bc32126fced787c88f984f87adf7ae0c7f9a208c6b4f20a4181472aaa9cb8d555526a9ffffffffc71a),
    (0x11560bf17baa99bc32126fced787c88f984f87adf7ae0c7f9a208c6b4f20a4181472aaa9cb8d555526a9ffffffffc71e,
     0x08ab05f8bdd54cde190937e76bc3e447cc27c3d6fbd7063fcd104635a790520c0a395554e5c6aaaa9354ffffffffe38d),
    (0x171d6541fa38ccfaed6dea691f5fb614cb14b4e7f4e810aa22d6108f142b85757098e38d0f671c7188e2aaaaaaaa5ed1, 0)] ∧
  coefficients isoXDen = [
    (0, 0x1a0111ea397fe69a4b1ba7b6434bacd764774b84f38512bf6730d2a0f6b0f6241eabfffeb153ffffb9feffffffffaa63),
    (0xc, 0x1a0111ea397fe69a4b1ba7b6434bacd764774b84f38512bf6730d2a0f6b0f6241eabfffeb153ffffb9feffffffffaa9f),
    (1, 0),
    (0, 0)] ∧
  coefficients isoYNum = [
    (0x1530477c7ab4113b59a4c18b076d11930f7da5d4a07f649bf54439d87d27e500fc8c25ebf8c92f6812cfc71c71c6d706,
     0x1530477c7ab4113b59a4c18b076d11930f7da5d4a07f649bf54439d87d27e500fc8c25ebf8c92f6812cfc71c71c6d706),
    (0, 0x05c759507e8e333ebb5b7a9a47d7ed8532c52d39fd3a042a88b58423c50ae15d5c2638e343d9c71c6238aaaaaaaa97be),
    (0x11560bf17baa99bc32126fced787c88f984f87adf7ae0c7f9a208c6b4f20a4181472aaa9cb8d555526a9ffffffffc71c,
     0x08ab05f8bdd54cde190937e76bc3e447cc27c3d6fbd7063fcd104635a790520c0a395554e5c6aaaa9354ffffffffe38f),
    (0x124c9ad43b6cf79bfbf7043de3811ad0761b0f37a1e26286b0e977c69aa274524e79097a56dc4bd9e1b371c71c718b10, 0)] ∧
  coefficients isoYDen = [
    (0x1a0111ea397fe69a4b1ba7b6434bacd764774b84f38512bf6730d2a0f6b0f6241eabfffeb153ffffb9feffffffffa8fb,
     0x1a0111ea397fe69a4b1ba7b6434bacd764774b84f38512bf6730d2a0f6b0f6241eabfffeb153ffffb9feffffffffa8fb),
    (0, 0x1a0111ea397fe69a4b1ba7b6434bacd764774b84f38512bf6730d2a0f6b0f6241eabfffeb153ffffb9feffffffffa9d3),
    (0x12, 0x1a0111ea397fe69a4b1ba7b6434bacd764774b84f38512bf6730d2a0f6b0f6241eabfffeb153ffffb9feffffffffaa99),
    (1, 0)]

/-! Control (R134 to R141). -/

/-- `HALT` ends the run: DONE, `INTR_STATE.done` set, nothing else changed, `pc` at the `HALT` (R134). `FAIL imm16` takes
SoftwareFail with `imm16` as information, from every state (R136). `NOP` and the two precompute hints change nothing
but `pc` (R108, R135, R340, R383). -/
def Obligations.HaltFailAndHints : Prop :=
  (∀ (a : RegIdx) (n : BitVec 4) (imm : BitVec 16),
    encode .halt = encR 0x01 0 0 0 0 0 0 ∧ encode (.fail imm) = encI 0x03 0 0 imm ∧
    encode .nop = encR 0x02 0 0 0 0 0 0 ∧ encode (.g1Precomp a n) = encR 0xCA a 0 0 0 0 n.toFin ∧
    encode (.g2Precomp a n) = encR 0xCB a 0 0 0 0 n.toFin) ∧
  (∀ s : State, exec .halt s = .next { s with status := .done, intrState := s.intrState ||| 1 }) ∧
  (∀ (s : State) (imm : BitVec 16), Traps (.fail imm) s .softwareFail (BitVec.ofNat 32 imm.toNat)) ∧
  (∀ (s : State) (a : RegIdx) (n : BitVec 4),
     exec .nop s = .next { s with pc := s.pc + 1 } ∧
     exec (.g1Precomp a n) s = .next { s with pc := s.pc + 1 } ∧
     exec (.g2Precomp a n) s = .next { s with pc := s.pc + 1 })

/-- `JAL` and `JALR` write the link `pc + 1` and go to their target, which `JALR` reads before it writes the link; a
link to `r0` is discarded (R137, R138). -/
def Obligations.JumpsLinkAndGo : Prop :=
  (∀ (a b : RegIdx) (imm : BitVec 16),
    encode (.jal a imm) = encI 0x04 a 0 imm ∧ encode (.jalr a b) = encR 0x05 a b 0 0 0 0) ∧
  ∀ (s : State) (a b : RegIdx) (imm : BitVec 16),
    RunsTo (.jal a imm) s (BitVec.ofInt 32 (s.pc.toNat + imm.toInt)) { r := [a] }
      (fun u => readR u a = asWritten a (s.pc + 1)) ∧
    RunsTo (.jalr a b) s (readR s b) { r := [a] } (fun u => readR u a = asWritten a (s.pc + 1))

/-- `BEQ`, `BNE`, `BLTU` go to the relative target when their condition holds, `BLTU` unsigned, else to the next
index, and change nothing else (R139, R140, R141). -/
def Obligations.BranchesChooseTheirTarget : Prop :=
  (∀ (a b : RegIdx) (imm : BitVec 16),
    encode (.beq a b imm) = encI 0x06 a b imm ∧ encode (.bne a b imm) = encI 0x07 a b imm ∧
    encode (.bltu a b imm) = encI 0x08 a b imm) ∧
  ∀ (s : State) (a b : RegIdx) (imm : BitVec 16),
    RunsTo (.beq a b imm) s
      (if readR s a = readR s b then BitVec.ofInt 32 (s.pc.toNat + imm.toInt) else s.pc + 1) {}
      (fun _ => True) ∧
    RunsTo (.bne a b imm) s
      (if readR s a = readR s b then s.pc + 1 else BitVec.ofInt 32 (s.pc.toNat + imm.toInt)) {}
      (fun _ => True) ∧
    RunsTo (.bltu a b imm) s
      (if (readR s a).toNat < (readR s b).toNat then BitVec.ofInt 32 (s.pc.toNat + imm.toInt) else s.pc + 1) {}
      (fun _ => True)

/-! Integer and scalar registers (R142 to R159). -/

/-- `LI`, `LUI`, `ADDI`, `ADD`, `SUB` modulo 2^32 and the three bitwise operations, with every destination, `r0` included
(R142 to R149). -/
def Obligations.IntegerArithmetic : Prop :=
  (∀ (a b c : RegIdx) (imm : BitVec 16),
    encode (.li a imm) = encI 0x10 a 0 imm ∧ encode (.lui a imm) = encI 0x11 a 0 imm ∧
    encode (.addi a b imm) = encI 0x12 a b imm ∧ encode (.add a b c) = encR 0x13 a b c 0 0 0 ∧
    encode (.sub a b c) = encR 0x14 a b c 0 0 0 ∧ encode (.and a b c) = encR 0x15 a b c 0 0 0 ∧
    encode (.or a b c) = encR 0x16 a b c 0 0 0 ∧ encode (.xor a b c) = encR 0x17 a b c 0 0 0) ∧
  (∀ (s : State) (a b : RegIdx) (imm : BitVec 16),
     Runs (.li a imm) s { r := [a] } (fun u => readR u a = asWritten a (BitVec.ofNat 32 imm.toNat)) ∧
     Runs (.lui a imm) s { r := [a] } (fun u => readR u a = asWritten a (BitVec.ofNat 32 (imm.toNat * 2 ^ 16))) ∧
     Runs (.addi a b imm) s { r := [a] }
       (fun u => readR u a = asWritten a (BitVec.ofInt 32 ((readR s b).toNat + imm.toInt)))) ∧
  (∀ (s : State) (a b c : RegIdx),
     Runs (.add a b c) s { r := [a] }
       (fun u => readR u a = asWritten a (BitVec.ofNat 32 ((readR s b).toNat + (readR s c).toNat))) ∧
     Runs (.sub a b c) s { r := [a] }
       (fun u => readR u a = asWritten a (BitVec.ofInt 32 ((readR s b).toNat - (readR s c).toNat : Int))) ∧
     Runs (.and a b c) s { r := [a] } (fun u => readR u a = asWritten a (readR s b &&& readR s c)) ∧
     Runs (.or a b c) s { r := [a] } (fun u => readR u a = asWritten a (readR s b ||| readR s c)) ∧
     Runs (.xor a b c) s { r := [a] } (fun u => readR u a = asWritten a (readR s b ^^^ readR s c)))

/-- `LW` and `LBU` (R150, R152) at the address of R85: the big-endian word and the zero-extended byte where the
access fits, DmemRange with the address where it does not (R74). -/
def Obligations.IntegerLoads : Prop :=
  (∀ (a b : RegIdx) (imm : BitVec 16),
    encode (.lw a b imm) = encI 0x18 a b imm ∧ encode (.lbu a b imm) = encI 0x1A a b imm) ∧
  ∀ (s : State) (a b : RegIdx) (imm : BitVec 16),
    let addr := effAddr s b imm
    let byte := fun j => (cellsRead s.dmem (addr.toNat + j)).toNat
    (addr = BitVec.ofInt 32 ((readR s b).toNat + imm.toInt)) ∧
    (addr.toNat + 4 ≤ Config.dmemBytes →
      Runs (.lw a b imm) s { r := [a] } (fun u => readR u a =
        asWritten a (BitVec.ofNat 32 (byte 0 * 2 ^ 24 + byte 1 * 2 ^ 16 + byte 2 * 2 ^ 8 + byte 3)))) ∧
    (Config.dmemBytes < addr.toNat + 4 → Traps (.lw a b imm) s .dmemRange addr) ∧
    (addr.toNat < Config.dmemBytes →
      Runs (.lbu a b imm) s { r := [a] } (fun u => readR u a = asWritten a (BitVec.ofNat 32 (byte 0)))) ∧
    (Config.dmemBytes ≤ addr.toNat → Traps (.lbu a b imm) s .dmemRange addr)

/-- `SW` and `SB` (R151, R153): four big-endian bytes, or the low byte, at the address where the access fits, and no
other byte of DMEM; DmemRange with the address and nothing written where it does not (R74). -/
def Obligations.IntegerStores : Prop :=
  (∀ (a b : RegIdx) (imm : BitVec 16),
    encode (.sw a b imm) = encI 0x19 a b imm ∧ encode (.sb a b imm) = encI 0x1B a b imm) ∧
  ∀ (s : State) (a b : RegIdx) (imm : BitVec 16), Memory.wf s.dmem →
    let addr := effAddr s b imm
    (addr.toNat + 4 ≤ Config.dmemBytes →
      Runs (.sw a b imm) s { memAt := addr.toNat, memLen := 4 } (fun u =>
        cellsRead u.dmem addr.toNat = (readR s a).extractLsb' 24 8 ∧
        cellsRead u.dmem (addr.toNat + 1) = (readR s a).extractLsb' 16 8 ∧
        cellsRead u.dmem (addr.toNat + 2) = (readR s a).extractLsb' 8 8 ∧
        cellsRead u.dmem (addr.toNat + 3) = (readR s a).extractLsb' 0 8)) ∧
    (Config.dmemBytes < addr.toNat + 4 → Traps (.sw a b imm) s .dmemRange addr) ∧
    (addr.toNat < Config.dmemBytes →
      Runs (.sb a b imm) s { memAt := addr.toNat, memLen := 1 } (fun u =>
        cellsRead u.dmem addr.toNat = (readR s a).extractLsb' 0 8)) ∧
    (Config.dmemBytes ≤ addr.toNat → Traps (.sb a b imm) s .dmemRange addr)

/-- `K.MOV`, `K.LI`, `K.VALID` (R154, R155, R159), and `K.ST`, which stores 32 big-endian bytes (R158). -/
def Obligations.ScalarMovesStoreAndRangeTest : Prop :=
  (∀ (a b : RegIdx) (imm : BitVec 16),
    encode (.kMov a b) = encR 0xB0 a b 0 0 0 0 ∧ encode (.kLi a imm) = encI 0xB1 a 0 imm ∧
    encode (.kValid a b) = encR 0xB5 a b 0 0 0 0 ∧ encode (.kSt a b imm) = encI 0xB4 a b imm) ∧
  (∀ (s : State) (a b : RegIdx) (imm : BitVec 16),
     Runs (.kMov a b) s { k := [a] } (fun u => readK u a = readK s b) ∧
     Runs (.kLi a imm) s { k := [a] } (fun u => (readK u a).toNat = imm.toNat) ∧
     Runs (.kValid a b) s { r := [a] }
       (fun u => Answers u a (0 < (readK s b).toNat ∧ (readK s b).toNat ≤ orderR))) ∧
  (∀ (s : State) (a b : RegIdx) (imm : BitVec 16), Memory.wf s.dmem →
     let addr := effAddr s b imm
     (addr.toNat + 32 ≤ Config.dmemBytes →
       Runs (.kSt a b imm) s { memAt := addr.toNat, memLen := 32 }
         (fun u => intAt u addr 32 = (readK s a).toNat)) ∧
     (Config.dmemBytes < addr.toNat + 32 → Traps (.kSt a b imm) s .dmemRange addr))

/-- `K.LD` and `K.LDSK` from `r[c]` bytes at `r[b]` (R156, R157): the value where it is in the range of the
instruction, ScalarOutOfRange where it is not, DmemRange first where the access does not fit. -/
def Obligations.ScalarLoads : Prop :=
  (∀ (a b c : RegIdx),
    encode (.kLd a b c) = encR 0xB2 a b c 0 0 0 ∧ encode (.kLdsk a b c) = encR 0xB3 a b c 0 0 0) ∧
  ∀ (s : State) (a b c : RegIdx),
    let addr := readR s b
    let n := (readR s c).toNat
    let v := intAt s addr n
    (Fits addr n →
      (v < 2 ^ 256 → Runs (.kLd a b c) s { k := [a] } (fun u => (readK u a).toNat = v)) ∧
      (2 ^ 256 ≤ v → Traps (.kLd a b c) s .scalarOutOfRange 0) ∧
      (0 < v ∧ v ≤ orderR → Runs (.kLdsk a b c) s { k := [a] } (fun u => (readK u a).toNat = v)) ∧
      (v = 0 ∨ orderR < v → Traps (.kLdsk a b c) s .scalarOutOfRange 0)) ∧
    (¬Fits addr n → Traps (.kLd a b c) s .dmemRange addr ∧ Traps (.kLdsk a b c) s .dmemRange addr)

/-! Fp (R185 to R199). -/

/-- `F.MOV`, `F.LI`, `F.EQ` (R185, R186, R199), and `F.ADD`, `F.SUB`, `F.NEG`, `F.MUL`, `F.SQR` as the integer operations
reduced modulo `p` (R190 to R194). -/
def Obligations.FieldArithmetic : Prop :=
  (∀ (a b c : RegIdx) (imm : BitVec 16),
    encode (.fMov a b) = encR 0x20 a b 0 0 0 0 ∧ encode (.fLi a imm) = encI 0x21 a 0 imm ∧
    encode (.fEq a b c) = encR 0x2E a b c 0 0 0 ∧ encode (.fAdd a b c) = encR 0x25 a b c 0 0 0 ∧
    encode (.fSub a b c) = encR 0x26 a b c 0 0 0 ∧ encode (.fNeg a b) = encR 0x27 a b 0 0 0 0 ∧
    encode (.fMul a b c) = encR 0x28 a b c 0 0 0 ∧ encode (.fSqr a b) = encR 0x29 a b 0 0 0 0) ∧
  (∀ (s : State) (a b c : RegIdx) (imm : BitVec 16),
     Runs (.fMov a b) s { f := [a] } (fun u => readF u a = readF s b) ∧
     Runs (.fLi a imm) s { f := [a] } (fun u => (readF u a).val = imm.toNat) ∧
     Runs (.fEq a b c) s { r := [a] } (fun u => Answers u a ((readF s b).val = (readF s c).val))) ∧
  (∀ (s : State) (a b c : RegIdx),
     let x : Int := (readF s b).val
     let y : Int := (readF s c).val
     Runs (.fAdd a b c) s { f := [a] } (fun u => ((readF u a).val : Int) = (x + y) % fieldP) ∧
     Runs (.fSub a b c) s { f := [a] } (fun u => ((readF u a).val : Int) = (x - y) % fieldP) ∧
     Runs (.fNeg a b) s { f := [a] } (fun u => ((readF u a).val : Int) = (-x) % fieldP) ∧
     Runs (.fMul a b c) s { f := [a] } (fun u => ((readF u a).val : Int) = (x * y) % fieldP) ∧
     Runs (.fSqr a b) s { f := [a] } (fun u => ((readF u a).val : Int) = (x * x) % fieldP))

/-- `F.LD` refuses a value of `p` or more, `F.LDR` reduces a string of any length, `F.ST` stores 48 big-endian
bytes (R187, R188, R189); DmemRange comes first. -/
def Obligations.FieldLoadsAndStore : Prop :=
  (∀ (a b c : RegIdx) (imm : BitVec 16),
    encode (.fLd a b imm) = encI 0x22 a b imm ∧ encode (.fSt a b imm) = encI 0x23 a b imm ∧
    encode (.fLdr a b c) = encR 0x24 a b c 0 0 0) ∧
  ∀ (s : State) (a b c : RegIdx) (imm : BitVec 16),
    let addr := effAddr s b imm
    (addr.toNat + 48 ≤ Config.dmemBytes →
      (intAt s addr 48 < fieldP → Runs (.fLd a b imm) s { f := [a] } (fun u => (readF u a).val = intAt s addr 48)) ∧
      (fieldP ≤ intAt s addr 48 → Traps (.fLd a b imm) s .nonCanonicalField 0) ∧
      (Memory.wf s.dmem → Runs (.fSt a b imm) s { memAt := addr.toNat, memLen := 48 }
        (fun u => intAt u addr 48 = (readF s a).val))) ∧
    (Config.dmemBytes < addr.toNat + 48 →
      Traps (.fLd a b imm) s .dmemRange addr ∧ Traps (.fSt a b imm) s .dmemRange addr) ∧
    (Fits (readR s b) (readR s c).toNat →
      Runs (.fLdr a b c) s { f := [a] }
        (fun u => (readF u a).val = intAt s (readR s b) (readR s c).toNat % fieldP)) ∧
    (¬Fits (readR s b) (readR s c).toNat → Traps (.fLdr a b c) s .dmemRange (readR s b))

/-- `F.INV` and `F.DIV`: the quotient by its defining product, and NoInverse for a zero divisor (R182, R195,
R196). -/
def Obligations.FieldInverseAndQuotient : Prop :=
  (∀ (a b c : RegIdx),
    encode (.fInv a b) = encR 0x2A a b 0 0 0 0 ∧ encode (.fDiv a b c) = encR 0x2B a b c 0 0 0) ∧
  ∀ (s : State) (a b c : RegIdx),
    ((readF s b).val ≠ 0 →
      Runs (.fInv a b) s { f := [a] } (fun u => (readF u a).val * (readF s b).val % fieldP = 1)) ∧
    ((readF s b).val = 0 → Traps (.fInv a b) s .noInverse 0) ∧
    ((readF s c).val ≠ 0 →
      Runs (.fDiv a b c) s { f := [a] }
        (fun u => (readF u a).val * (readF s c).val % fieldP = (readF s b).val)) ∧
    ((readF s c).val = 0 → Traps (.fDiv a b c) s .noInverse 0)

/-- `F.SQRT` (R183, R198): flag 1 and a root, itself a square, exactly when the operand is a square; else flag 0 and
the destination unchanged. -/
def Obligations.FieldSquareRoot : Prop :=
  (∀ (a b c : RegIdx),
    encode (.fSqrt a b c) = encR 0x2D a b c 0 0 0) ∧
  ∀ (s : State) (a b c : RegIdx),
    ((∃ y : Fp, y.val * y.val % fieldP = (readF s b).val) →
      Runs (.fSqrt a b c) s { f := [a], r := [c] } (fun u =>
        readR u c = asWritten c 1 ∧
        (readF u a).val * (readF u a).val % fieldP = (readF s b).val ∧
        (readF u a).val = (readF s b).val ^ ((fieldP + 1) / 4) % fieldP ∧
        ∃ z : Fp, z.val * z.val % fieldP = (readF u a).val)) ∧
    ((¬∃ y : Fp, y.val * y.val % fieldP = (readF s b).val) →
      Runs (.fSqrt a b c) s { r := [c] } (fun u => readR u c = asWritten c 0))

/-- The four power instructions are repeated multiplication with a 256-bit exponent, and the power 0 is the unit for
every base (R9, R197, R227, R257, R289). -/
def Obligations.PowersAreRepeatedProducts : Prop :=
  (∀ (a b c : RegIdx),
    encode (.fPow a b c) = encR 0x2C a b c 0 0 0 ∧ encode (.qPow a b c) = encR 0x3C a b c 0 0 0 ∧
    encode (.sPow a b c) = encR 0x4C a b c 0 0 0 ∧ encode (.tPow a b c) = encR 0x5C a b c 0 0 0) ∧
  ∀ (s : State) (a b c : RegIdx),
    let n := (readK s c).toNat
    Runs (.fPow a b c) s { f := [a] } (fun u => (readF u a).val = (readF s b).val ^ n % fieldP) ∧
    Runs (.qPow a b c) s { q := [a] } (fun u => readQ u a = repMul qMul one2 (readQ s b) n) ∧
    Runs (.sPow a b c) s { s := [a] } (fun u => readS u a = repMul sMul one6 (readS s b) n) ∧
    Runs (.tPow a b c) s { t := [a] } (fun u => readT u a = repMul tMul one12 (readT s b) n)

/-! Fp2 (R215 to R230). -/

/-- `Q.MOV`, `Q.PACK`, `Q.GET`, `Q.SGN0`, `Q.EQ` (R215, R216, R217, R219, R229). -/
def Obligations.QuadraticMovesAndTests : Prop :=
  (∀ (a b c : RegIdx) (n : BitVec 4),
    encode (.qMov a b) = encR 0x30 a b 0 0 0 0 ∧ encode (.qPack a b c) = encR 0x31 a b c 0 0 0 ∧
    encode (.qGet a b n) = encR 0x32 a b 0 0 0 n.toFin ∧ encode (.qSgn0 a b) = encR 0x34 a b 0 0 0 0 ∧
    encode (.qEq a b c) = encR 0x3E a b c 0 0 0) ∧
  ∀ (s : State) (a b c : RegIdx),
    Runs (.qMov a b) s { q := [a] } (fun u => readQ u a = readQ s b) ∧
    Runs (.qPack a b c) s { q := [a] } (fun u => (readQ u a).c0 = readF s b ∧ (readQ u a).c1 = readF s c) ∧
    Runs (.qGet a b 0) s { f := [a] } (fun u => readF u a = (readQ s b).c0) ∧
    Runs (.qGet a b 1) s { f := [a] } (fun u => readF u a = (readQ s b).c1) ∧
    Runs (.qSgn0 a b) s { r := [a] } (fun u => Answers u a
      ((readQ s b).c0.val % 2 = 1 ∨ ((readQ s b).c0.val = 0 ∧ (readQ s b).c1.val % 2 = 1))) ∧
    Runs (.qEq a b c) s { r := [a] } (fun u => Answers u a
      ((readQ s b).c0.val = (readQ s c).c0.val ∧ (readQ s b).c1.val = (readQ s c).c1.val))

/-- `Q.ADD`, `Q.SUB`, `Q.NEG`, `Q.MUL`, `Q.SQR`, `Q.MULNR` in integers modulo `p`, with `u² = -1`
(R211, R220 to R224, R230). -/
def Obligations.QuadraticArithmetic : Prop :=
  (∀ (a b c : RegIdx),
    encode (.qAdd a b c) = encR 0x35 a b c 0 0 0 ∧ encode (.qSub a b c) = encR 0x36 a b c 0 0 0 ∧
    encode (.qNeg a b) = encR 0x37 a b 0 0 0 0 ∧ encode (.qMul a b c) = encR 0x38 a b c 0 0 0 ∧
    encode (.qSqr a b) = encR 0x39 a b 0 0 0 0 ∧ encode (.qMulnr a b) = encR 0x3F a b 0 0 0 0) ∧
  ∀ (s : State) (a b c : RegIdx),
    let x0 : Int := (readQ s b).c0.val
    let x1 : Int := (readQ s b).c1.val
    let y0 : Int := (readQ s c).c0.val
    let y1 : Int := (readQ s c).c1.val
    let gets := fun (u : State) (z0 z1 : Int) =>
      ((readQ u a).c0.val : Int) = z0 % fieldP ∧ ((readQ u a).c1.val : Int) = z1 % fieldP
    Runs (.qAdd a b c) s { q := [a] } (fun u => gets u (x0 + y0) (x1 + y1)) ∧
    Runs (.qSub a b c) s { q := [a] } (fun u => gets u (x0 - y0) (x1 - y1)) ∧
    Runs (.qNeg a b) s { q := [a] } (fun u => gets u (-x0) (-x1)) ∧
    Runs (.qMul a b c) s { q := [a] } (fun u => gets u (x0 * y0 - x1 * y1) (x0 * y1 + x1 * y0)) ∧
    Runs (.qSqr a b) s { q := [a] } (fun u => gets u ((x0 + x1) * (x0 - x1)) (2 * x0 * x1)) ∧
    Runs (.qMulnr a b) s { q := [a] } (fun u => gets u (x0 - x1) (x0 + x1))

/-- `Q.INV` and `Q.DIV`: the quotient by its defining product, and NoInverse exactly for a zero divisor
(R212, R225, R226). -/
def Obligations.QuadraticInverseAndQuotient : Prop :=
  (∀ (a b c : RegIdx),
    encode (.qInv a b) = encR 0x3A a b 0 0 0 0 ∧ encode (.qDiv a b c) = encR 0x3B a b c 0 0 0) ∧
  ∀ (s : State) (a b c : RegIdx),
    (readQ s b ≠ zero2 → Runs (.qInv a b) s { q := [a] } (fun u => qMul (readQ u a) (readQ s b) = one2)) ∧
    (readQ s b = zero2 → Traps (.qInv a b) s .noInverse 0) ∧
    (readQ s c ≠ zero2 → Runs (.qDiv a b c) s { q := [a] } (fun u => qMul (readQ u a) (readQ s c) = readQ s b)) ∧
    (readQ s c = zero2 → Traps (.qDiv a b c) s .noInverse 0)

/-- `Q.SQRT` (R214, R228): for a non-zero square the root whose (imaginary, real) pair is the greater of the two,
NoDivisor for a non-square, NoInverse for zero. That the greater of the two roots is the one returned the spec
marks as from general knowledge (R214, D36). -/
def Obligations.QuadraticSquareRoot : Prop :=
  (∀ (a b : RegIdx),
    encode (.qSqrt a b) = encR 0x3D a b 0 0 0 0) ∧
  ∀ (s : State) (a b : RegIdx),
    (readQ s b ≠ zero2 → (∃ y, qMul y y = readQ s b) →
      Runs (.qSqrt a b) s { q := [a] } (fun u =>
        let z := readQ u a
        qMul z z = readQ s b ∧
        ((qNeg z).c1.val < z.c1.val ∨ ((qNeg z).c1.val = z.c1.val ∧ (qNeg z).c0.val < z.c0.val)))) ∧
    (readQ s b ≠ zero2 → (¬∃ y, qMul y y = readQ s b) → Traps (.qSqrt a b) s .noDivisor 0) ∧
    (readQ s b = zero2 → Traps (.qSqrt a b) s .noInverse 0)

/-! Fp6 and Fp12 (R245 to R294). -/

/-- The moves, packs, component reads, equality tests of both levels, `S.MULNR` and `T.CONJ` (R245 to R247, R258,
R259, R277 to R279, R281, R291). -/
def Obligations.TowerMovesAndTests : Prop :=
  (∀ (a b c d : RegIdx) (n : BitVec 4),
    encode (.sMov a b) = encR 0x40 a b 0 0 0 0 ∧ encode (.sPack a b c d) = encR 0x41 a b c d 0 0 ∧
    encode (.sGet a b n) = encR 0x42 a b 0 0 0 n.toFin ∧ encode (.sEq a b c) = encR 0x4E a b c 0 0 0 ∧
    encode (.sMulnr a b) = encR 0x4F a b 0 0 0 0 ∧ encode (.tMov a b) = encR 0x50 a b 0 0 0 0 ∧
    encode (.tPack a b c) = encR 0x51 a b c 0 0 0 ∧ encode (.tGet a b n) = encR 0x52 a b 0 0 0 n.toFin ∧
    encode (.tEq a b c) = encR 0x5E a b c 0 0 0 ∧ encode (.tConj a b) = encR 0x54 a b 0 0 0 0) ∧
  ∀ (s : State) (a b c d : RegIdx),
    Runs (.sMov a b) s { s := [a] } (fun u => readS u a = readS s b) ∧
    Runs (.sPack a b c d) s { s := [a] } (fun u => (readS u a).c0 = readQ s b ∧ (readS u a).c1 = readQ s c ∧
      (readS u a).c2 = readQ s d) ∧
    Runs (.sGet a b 0) s { q := [a] } (fun u => readQ u a = (readS s b).c0) ∧
    Runs (.sGet a b 1) s { q := [a] } (fun u => readQ u a = (readS s b).c1) ∧
    Runs (.sGet a b 2) s { q := [a] } (fun u => readQ u a = (readS s b).c2) ∧
    Runs (.sEq a b c) s { r := [a] } (fun u => Answers u a (readS s b = readS s c)) ∧
    Runs (.sMulnr a b) s { s := [a] } (fun u => (readS u a).c0 = qMul (mkFp2 1 1) (readS s b).c2 ∧
      (readS u a).c1 = (readS s b).c0 ∧ (readS u a).c2 = (readS s b).c1) ∧
    Runs (.tMov a b) s { t := [a] } (fun u => readT u a = readT s b) ∧
    Runs (.tPack a b c) s { t := [a] } (fun u => (readT u a).c0 = readS s b ∧ (readT u a).c1 = readS s c) ∧
    Runs (.tGet a b 0) s { s := [a] } (fun u => readS u a = (readT s b).c0) ∧
    Runs (.tGet a b 1) s { s := [a] } (fun u => readS u a = (readT s b).c1) ∧
    Runs (.tEq a b c) s { r := [a] } (fun u => Answers u a (readT s b = readT s c)) ∧
    Runs (.tConj a b) s { t := [a] } (fun u => (readT u a).c0 = (readT s b).c0 ∧
      sAdd (readT u a).c1 (readT s b).c1 = zero6)

/-- Sums, differences and negatives of Fp6 and Fp12 act on every coefficient (R241, R250 to R252, R271,
R282 to R284). -/
def Obligations.TowerSums : Prop :=
  (∀ (a b c : RegIdx),
    encode (.sAdd a b c) = encR 0x45 a b c 0 0 0 ∧ encode (.sSub a b c) = encR 0x46 a b c 0 0 0 ∧
    encode (.sNeg a b) = encR 0x47 a b 0 0 0 0 ∧ encode (.tAdd a b c) = encR 0x55 a b c 0 0 0 ∧
    encode (.tSub a b c) = encR 0x56 a b c 0 0 0 ∧ encode (.tNeg a b) = encR 0x57 a b 0 0 0 0) ∧
  ∀ (s : State) (a b c : RegIdx),
    let each6 := fun (op : Fp2 → Fp2 → Fp2) (z x y : Fp6) => z.c0 = op x.c0 y.c0 ∧ z.c1 = op x.c1 y.c1 ∧ z.c2 = op x.c2 y.c2
    let each12 := fun (op : Fp2 → Fp2 → Fp2) (z x y : Fp12) => each6 op z.c0 x.c0 y.c0 ∧ each6 op z.c1 x.c1 y.c1
    let neg := fun (_ y : Fp2) => qNeg y
    Runs (.sAdd a b c) s { s := [a] } (fun u => each6 qAdd (readS u a) (readS s b) (readS s c)) ∧
    Runs (.sSub a b c) s { s := [a] } (fun u => each6 qSub (readS u a) (readS s b) (readS s c)) ∧
    Runs (.sNeg a b) s { s := [a] } (fun u => each6 neg (readS u a) (readS s b) (readS s b)) ∧
    Runs (.tAdd a b c) s { t := [a] } (fun u => each12 qAdd (readT u a) (readT s b) (readT s c)) ∧
    Runs (.tSub a b c) s { t := [a] } (fun u => each12 qSub (readT u a) (readT s b) (readT s c)) ∧
    Runs (.tNeg a b) s { t := [a] } (fun u => each12 neg (readT u a) (readT s b) (readT s b))

/-- `S.MUL` and `S.SQR` are the product of R242, in the three-term Karatsuba form the rule says gives the same value, and
the sparse products are the short forms of R244 (R248, R249, R253, R254). `T.MUL` and `T.SQR` in the Karatsuba form of
R271, and `T.MUL014` in the sparse evaluation R274 calls equivalent (R285, R286, R290). -/
def Obligations.TowerProducts : Prop :=
  (∀ (a b c d e : RegIdx),
    encode (.sMul a b c) = encR 0x48 a b c 0 0 0 ∧ encode (.sSqr a b) = encR 0x49 a b 0 0 0 0 ∧
    encode (.sMul1 a b c) = encR 0x43 a b c 0 0 0 ∧ encode (.sMul01 a b c d) = encR 0x44 a b c d 0 0 ∧
    encode (.tMul a b c) = encR 0x58 a b c 0 0 0 ∧ encode (.tSqr a b) = encR 0x59 a b 0 0 0 0 ∧
    encode (.tMul014 a b c d e) = encR 0x5D a b c d e 0) ∧
  (∀ (s : State) (a b c d : RegIdx),
     let kara := fun (x y : Fp6) =>
       let t0 := qMul x.c0 y.c0
       let t1 := qMul x.c1 y.c1
       let t2 := qMul x.c2 y.c2
       let xi := mkFp2 1 1
       (⟨qAdd t0 (qMul xi (qSub (qSub (qMul (qAdd x.c1 x.c2) (qAdd y.c1 y.c2)) t1) t2)),
         qAdd (qSub (qSub (qMul (qAdd x.c0 x.c1) (qAdd y.c0 y.c1)) t0) t1) (qMul xi t2),
         qAdd (qSub (qSub (qMul (qAdd x.c0 x.c2) (qAdd y.c0 y.c2)) t0) t2) t1⟩ : Fp6)
     let x := readS s b
     let b0 := readQ s c
     let b1 := readQ s d
     Runs (.sMul a b c) s { s := [a] } (fun u => readS u a = kara x (readS s c)) ∧
     Runs (.sSqr a b) s { s := [a] } (fun u => readS u a = kara x x) ∧
     Runs (.sMul1 a b c) s { s := [a] } (fun u =>
       readS u a = ⟨qMulnr (qMul x.c2 b0), qMul x.c0 b0, qMul x.c1 b0⟩) ∧
     Runs (.sMul01 a b c d) s { s := [a] } (fun u =>
       readS u a = ⟨qAdd (qMul x.c0 b0) (qMulnr (qMul x.c2 b1)), qAdd (qMul x.c0 b1) (qMul x.c1 b0),
         qAdd (qMul x.c1 b1) (qMul x.c2 b0)⟩)) ∧
  (∀ (s : State) (a b c d e : RegIdx),
     let kara := fun (x y : Fp12) =>
       let t1 := sMul x.c0 y.c0
       let t2 := sMul x.c1 y.c1
       (⟨sAdd t1 (sMulnr t2), sSub (sMul (sAdd x.c0 x.c1) (sAdd y.c0 y.c1)) (sAdd t1 t2)⟩ : Fp12)
     let x := readT s b
     Runs (.tMul a b c) s { t := [a] } (fun u => readT u a = kara x (readT s c)) ∧
     Runs (.tSqr a b) s { t := [a] } (fun u => readT u a = kara x x) ∧
     Runs (.tMul014 a b c d e) s { t := [a] } (fun u =>
       let o0 := readQ s c
       let o1 := readQ s d
       let o4 := readQ s e
       let t0 := sMul01 x.c0 o0 o1
       let t1 := sMul1 x.c1 o4
       readT u a = ⟨sAdd (sMulnr t1) t0, sSub (sSub (sMul01 (sAdd x.c1 x.c0) o0 (qAdd o1 o4)) t0) t1⟩))

/-- Fp6 and Fp12 are fields: `S.INV`, `S.DIV`, `T.INV`, `T.DIV` give the quotient, by its defining product, for every
non-zero divisor, and NoInverse for zero (R240, R243, R255, R256, R270, R272, R287, R288). -/
def Obligations.TowerInversesAndQuotients : Prop :=
  (∀ (a b c : RegIdx),
    encode (.sInv a b) = encR 0x4A a b 0 0 0 0 ∧ encode (.sDiv a b c) = encR 0x4B a b c 0 0 0 ∧
    encode (.tInv a b) = encR 0x5A a b 0 0 0 0 ∧ encode (.tDiv a b c) = encR 0x5B a b c 0 0 0) ∧
  ∀ (s : State) (a b c : RegIdx),
    (readS s b ≠ zero6 → Runs (.sInv a b) s { s := [a] } (fun u => sMul (readS u a) (readS s b) = one6)) ∧
    (readS s b = zero6 → Traps (.sInv a b) s .noInverse 0) ∧
    (readS s c ≠ zero6 → Runs (.sDiv a b c) s { s := [a] } (fun u => sMul (readS u a) (readS s c) = readS s b)) ∧
    (readS s c = zero6 → Traps (.sDiv a b c) s .noInverse 0) ∧
    (readT s b ≠ zero12 → Runs (.tInv a b) s { t := [a] } (fun u => tMul (readT u a) (readT s b) = one12)) ∧
    (readT s b = zero12 → Traps (.tInv a b) s .noInverse 0) ∧
    (readT s c ≠ zero12 → Runs (.tDiv a b c) s { t := [a] } (fun u => tMul (readT u a) (readT s c) = readT s b)) ∧
    (readT s c = zero12 → Traps (.tDiv a b c) s .noInverse 0)

/-- `Q.FROB` and `T.FROB` with power `n` are `a^(p^n)`, for all sixteen values of `n` (R213, R218, R273, R280). -/
def Obligations.FrobeniusIsThePowerOfP : Prop :=
  (∀ (a b : RegIdx) (n : BitVec 4),
    encode (.qFrob a b n) = encR 0x33 a b 0 0 0 n.toFin ∧ encode (.tFrob a b n) = encR 0x53 a b 0 0 0 n.toFin) ∧
  ∀ (s : State) (a b : RegIdx) (n : BitVec 4),
    Runs (.qFrob a b n) s { q := [a] } (fun u => readQ u a = repMul qMul one2 (readQ s b) (fieldP ^ n.toNat)) ∧
    Runs (.tFrob a b n) s { t := [a] } (fun u => readT u a = repMul tMul one12 (readT s b) (fieldP ^ n.toNat))

/-- `T.CYCSQR` gives the coefficients of R275 on every operand, and the square on the cyclotomic subgroup (R292);
`T.CYCEXP` gives the value of the loop of R275 over the 256 bits of the scalar, from the top one down (R293).
The formulas of R275 the spec marks as from general knowledge (D39). -/
def Obligations.CyclotomicOperations : Prop :=
  (∀ (a b c : RegIdx),
    encode (.tCycsqr a b) = encR 0x80 a b 0 0 0 0 ∧ encode (.tCycexp a b c) = encR 0x81 a b c 0 0 0) ∧
  ∀ (s : State) (a b c : RegIdx),
    let x := readT s b
    let three := fun (y : Fp2) => qMulf y (toFp 3)
    let two := fun (y : Fp2) => qMulf y (toFp 2)
    let sq := fun (y z : Fp2) => qAdd (qMul (mkFp2 1 1) (qMul z z)) (qMul y y)
    let mix := fun (y z : Fp2) => two (qMul y z)
    Runs (.tCycsqr a b) s { t := [a] } (fun u =>
      let z := readT u a
      z.c0.c0 = qSub (three (sq x.c0.c0 x.c1.c1)) (two x.c0.c0) ∧
      z.c0.c1 = qSub (three (sq x.c1.c0 x.c0.c2)) (two x.c0.c1) ∧
      z.c0.c2 = qSub (three (sq x.c0.c1 x.c1.c2)) (two x.c0.c2) ∧
      z.c1.c0 = qAdd (three (qMul (mkFp2 1 1) (mix x.c0.c1 x.c1.c2))) (two x.c1.c0) ∧
      z.c1.c1 = qAdd (three (mix x.c0.c0 x.c1.c1)) (two x.c1.c1) ∧
      z.c1.c2 = qAdd (three (mix x.c1.c0 x.c0.c2)) (two x.c1.c2) ∧
      (repMul tMul one12 x (fieldP ^ 4 - fieldP ^ 2 + 1) = one12 → z = tMul x x)) ∧
    Runs (.tCycexp a b c) s { t := [a] } (fun u =>
      ∀ z : Nat → Fp12, z 256 = one12 →
        (∀ i < 256, z i = if (readK s c).toNat.testBit i then tMul (tCycsqr (z (i + 1))) x else tCycsqr (z (i + 1))) →
        readT u a = z 0)

/-- `T.FINALEXP` raises a non-zero operand to the power `3·(p¹² - 1)/r` (R276, R294), and takes NoInverse for zero.
The chain of R276 the spec marks as from general knowledge, and this power as its value. -/
def Obligations.FinalExponentiationIsThePower : Prop :=
  (∀ (a b : RegIdx),
    encode (.tFinalexp a b) = encR 0x82 a b 0 0 0 0) ∧
  ∀ (s : State) (a b : RegIdx),
    (readT s b ≠ zero12 → Runs (.tFinalexp a b) s { t := [a] } (fun u =>
      readT u a = repMul tMul one12 (readT s b) (3 * ((fieldP ^ 12 - 1) / orderR)))) ∧
    (readT s b = zero12 → Traps (.tFinalexp a b) s .noInverse 0)

/-! Points (R316 to R334, R358 to R377). -/

/-- Moves, construction and coordinates of G1 and G2 points (R316 to R320, R358 to R362): the pack of a projective
triple by its defining products, the identity for `Z = 0`; NoInverse for the coordinates of the identity; the
coordinate written second stays when both name one register. -/
def Obligations.PointMovesAndCoordinates : Prop :=
  (∀ (a b c d : RegIdx),
    encode (.g1Mov a b) = encR 0x60 a b 0 0 0 0 ∧ encode (.g1Id a) = encR 0x63 a 0 0 0 0 0 ∧
    encode (.g1Gen a) = encR 0x64 a 0 0 0 0 0 ∧ encode (.g1Pack a b c d) = encR 0x61 a b c d 0 0 ∧
    encode (.g1Getaff a b c) = encR 0x62 a b c 0 0 0 ∧ encode (.g2Mov a b) = encR 0x70 a b 0 0 0 0 ∧
    encode (.g2Id a) = encR 0x73 a 0 0 0 0 0 ∧ encode (.g2Gen a) = encR 0x74 a 0 0 0 0 0 ∧
    encode (.g2Pack a b c d) = encR 0x71 a b c d 0 0 ∧ encode (.g2Getaff a b c) = encR 0x72 a b c 0 0 0) ∧
  (∀ (s : State) (a b c d : RegIdx),
     Runs (.g1Mov a b) s { g := [a] } (fun u => readG u a = readG s b) ∧
     Runs (.g1Id a) s { g := [a] } (fun u => readG u a = .O) ∧
     Runs (.g1Gen a) s { g := [a] } (fun u => ∃ x y : Fp, readG u a = .aff x y ∧
       x.val = 0x17f1d3a73197d7942695638c4fa9ac0fc3688c4f9774b905a14e3a3f171bac586c55e83ff97a1aeffb3af00adb22c6bb ∧
       y.val = 0x08b3f481e3aaa0f1a09e30ed741d8ae4fcf5e095d5d00af600db18cb2c04b3edd03cc744a2888ae40caa232946c5e7e1) ∧
     ((readF s d).val = 0 → Runs (.g1Pack a b c d) s { g := [a] } (fun u => readG u a = .O)) ∧
     ((readF s d).val ≠ 0 → Runs (.g1Pack a b c d) s { g := [a] } (fun u => ∃ x y : Fp, readG u a = .aff x y ∧
       x.val * (readF s d).val % fieldP = (readF s b).val ∧ y.val * (readF s d).val % fieldP = (readF s c).val)) ∧
     (readG s c = .O → Traps (.g1Getaff a b c) s .noInverse 0) ∧
     ∀ x y, readG s c = .aff x y → Runs (.g1Getaff a b c) s { f := [a, b] }
       (fun u => (a ≠ b → readF u a = x) ∧ readF u b = y)) ∧
  (∀ (s : State) (a b c d : RegIdx),
     Runs (.g2Mov a b) s { h := [a] } (fun u => readH u a = readH s b) ∧
     Runs (.g2Id a) s { h := [a] } (fun u => readH u a = .O) ∧
     Runs (.g2Gen a) s { h := [a] } (fun u => ∃ x y : Fp2, readH u a = .aff x y ∧
       x.c0.val = 0x024aa2b2f08f0a91260805272dc51051c6e47ad4fa403b02b4510b647ae3d1770bac0326a805bbefd48056c8c121bdb8 ∧
       x.c1.val = 0x13e02b6052719f607dacd3a088274f65596bd0d09920b61ab5da61bbdc7f5049334cf11213945d57e5ac7d055d042b7e ∧
       y.c0.val = 0x0ce5d527727d6e118cc9cdc6da2e351aadfd9baa8cbdd3a76d429a695160d12c923ac9cc3baca289e193548608b82801 ∧
       y.c1.val = 0x0606c4a02ea734cc32acd2b02bc28b99cb3e287e85a763af267492ab572e99ab3f370d275cec1da1aaa9075ff05f79be) ∧
     (readQ s d = zero2 → Runs (.g2Pack a b c d) s { h := [a] } (fun u => readH u a = .O)) ∧
     (readQ s d ≠ zero2 → Runs (.g2Pack a b c d) s { h := [a] } (fun u => ∃ x y : Fp2, readH u a = .aff x y ∧
       qMul x (readQ s d) = readQ s b ∧ qMul y (readQ s d) = readQ s c)) ∧
     (readH s c = .O → Traps (.g2Getaff a b c) s .noInverse 0) ∧
     ∀ x y, readH s c = .aff x y → Runs (.g2Getaff a b c) s { q := [a, b] }
       (fun u => (a ≠ b → readQ u a = x) ∧ readQ u b = y))

/-- The tests of both point files answer 1 or 0 and never raise (R328 to R332, R370 to R374, R495). The subgroup
tests of R309 and R354 the spec marks as from general knowledge. -/
def Obligations.PointTestsAnswerTheirPredicates : Prop :=
  (∀ (a b c : RegIdx),
    encode (.g1Eq a b c) = encR 0x6C a b c 0 0 0 ∧ encode (.g1Isid a b) = encR 0x6D a b 0 0 0 0 ∧
    encode (.g1Oncurve a b) = encR 0x6D a b 0 0 0 1 ∧ encode (.g1Insub a b) = encR 0x6D a b 0 0 0 2 ∧
    encode (.g1Valid a b) = encR 0x6D a b 0 0 0 3 ∧ encode (.g2Eq a b c) = encR 0x7C a b c 0 0 0 ∧
    encode (.g2Isid a b) = encR 0x7D a b 0 0 0 0 ∧ encode (.g2Oncurve a b) = encR 0x7D a b 0 0 0 1 ∧
    encode (.g2Insub a b) = encR 0x7D a b 0 0 0 2 ∧ encode (.g2Valid a b) = encR 0x7D a b 0 0 0 3) ∧
  ∀ (s : State) (a b c : RegIdx),
    Runs (.g1Eq a b c) s { r := [a] } (fun u => Answers u a (readG s b = readG s c)) ∧
    Runs (.g1Isid a b) s { r := [a] } (fun u => Answers u a (readG s b = .O)) ∧
    Runs (.g1Oncurve a b) s { r := [a] } (fun u => Answers u a (OnCurve1 (readG s b))) ∧
    Runs (.g1Insub a b) s { r := [a] } (fun u => Answers u a (InSubgroup1 (readG s b))) ∧
    Runs (.g1Valid a b) s { r := [a] } (fun u =>
      Answers u a (OnCurve1 (readG s b) ∧ InSubgroup1 (readG s b))) ∧
    Runs (.g2Eq a b c) s { r := [a] } (fun u => Answers u a (readH s b = readH s c)) ∧
    Runs (.g2Isid a b) s { r := [a] } (fun u => Answers u a (readH s b = .O)) ∧
    Runs (.g2Oncurve a b) s { r := [a] } (fun u => Answers u a (OnCurve2 (readH s b))) ∧
    Runs (.g2Insub a b) s { r := [a] } (fun u => Answers u a (InSubgroup2 (readH s b))) ∧
    Runs (.g2Valid a b) s { r := [a] } (fun u =>
      Answers u a (OnCurve2 (readH s b) ∧ InSubgroup2 (readH s b)))

/-- `ADD`, `SUB`, `NEG`, `DBL` of G1 and G2: the chord and tangent law on classes, the quotient `λ` by its defining
equation, on every operand, off the curve too (R302 to R304, R321 to R324, R351, R363 to R366). The formulas of
R302 and R303 the spec marks as from general knowledge. -/
def Obligations.PointSums : Prop :=
  (∀ (a b c : RegIdx),
    encode (.g1Add a b c) = encR 0x65 a b c 0 0 0 ∧ encode (.g1Sub a b c) = encR 0x66 a b c 0 0 0 ∧
    encode (.g1Neg a b) = encR 0x67 a b 0 0 0 0 ∧ encode (.g1Dbl a b) = encR 0x68 a b 0 0 0 0 ∧
    encode (.g2Add a b c) = encR 0x75 a b c 0 0 0 ∧ encode (.g2Sub a b c) = encR 0x76 a b c 0 0 0 ∧
    encode (.g2Neg a b) = encR 0x77 a b 0 0 0 0 ∧ encode (.g2Dbl a b) = encR 0x78 a b 0 0 0 0) ∧
  (∀ (s : State) (a b c : RegIdx),
     Runs (.g1Add a b c) s { g := [a] } (fun u => AddsTo opsFp (readG s b) (readG s c) (readG u a)) ∧
     Runs (.g1Sub a b c) s { g := [a] } (fun u =>
       ∃ m, NegatesTo opsFp (readG s c) m ∧ AddsTo opsFp (readG s b) m (readG u a)) ∧
     Runs (.g1Neg a b) s { g := [a] } (fun u => NegatesTo opsFp (readG s b) (readG u a)) ∧
     Runs (.g1Dbl a b) s { g := [a] } (fun u => DoublesTo opsFp (readG s b) (readG u a))) ∧
  (∀ (s : State) (a b c : RegIdx),
     Runs (.g2Add a b c) s { h := [a] } (fun u => AddsTo opsFp2 (readH s b) (readH s c) (readH u a)) ∧
     Runs (.g2Sub a b c) s { h := [a] } (fun u =>
       ∃ m, NegatesTo opsFp2 (readH s c) m ∧ AddsTo opsFp2 (readH s b) m (readH u a)) ∧
     Runs (.g2Neg a b) s { h := [a] } (fun u => NegatesTo opsFp2 (readH s b) (readH u a)) ∧
     Runs (.g2Dbl a b) s { h := [a] } (fun u => DoublesTo opsFp2 (readH s b) (readH u a)))

/-- The six scalar multiplications give the value of the loop of R305, least significant bit first: the scalar of a
`k` register for `MUL` and `MULU`, which agree on every operand, and `X_ABS` for `MULMX` (R325 to R327, R367 to
R369). The sums inside the loop are those of R302 and R303, which the spec marks as from general knowledge. -/
def Obligations.PointMultiplesFollowTheLoop : Prop :=
  (∀ (a b c : RegIdx),
    encode (.g1Mul a b c) = encR 0x69 a b c 0 0 0 ∧ encode (.g1Mulu a b c) = encR 0x6A a b c 0 0 0 ∧
    encode (.g1Mulmx a b) = encR 0x6B a b 0 0 0 0 ∧ encode (.g2Mul a b c) = encR 0x79 a b c 0 0 0 ∧
    encode (.g2Mulu a b c) = encR 0x7A a b c 0 0 0 ∧ encode (.g2Mulmx a b) = encR 0x7B a b 0 0 0 0) ∧
  ∀ (s : State) (a b c : RegIdx) (loop1 : Point Fp → Point Fp → Nat → Point Fp)
    (loop2 : Point Fp2 → Point Fp2 → Nat → Point Fp2), IsMulLoop opsFp loop1 → IsMulLoop opsFp2 loop2 →
    let n := (readK s c).toNat
    Runs (.g1Mul a b c) s { g := [a] } (fun u => readG u a = loop1 .O (readG s b) n) ∧
    Runs (.g1Mulu a b c) s { g := [a] } (fun u => readG u a = loop1 .O (readG s b) n) ∧
    Runs (.g1Mulmx a b) s { g := [a] } (fun u => readG u a = loop1 .O (readG s b) 0xd201000000010000) ∧
    Runs (.g2Mul a b c) s { h := [a] } (fun u => readH u a = loop2 .O (readH s b) n) ∧
    Runs (.g2Mulu a b c) s { h := [a] } (fun u => readH u a = loop2 .O (readH s b) n) ∧
    Runs (.g2Mulmx a b) s { h := [a] } (fun u => readH u a = loop2 .O (readH s b) 0xd201000000010000)

/-- The endomorphisms and the cofactor clearings (R308, R310, R352, R353, R355, R333, R334, R375 to R377); and `ψ`
twice is `ψ²` on every pair (R353). The constants of R12 and the map of R352 the spec marks as from general
knowledge. -/
def Obligations.EndomorphismsAndCofactors : Prop :=
  (∀ (a b : RegIdx),
    encode (.g1Phi a b) = encR 0x6F a b 0 0 0 0 ∧ encode (.g1Clrcof a b) = encR 0x6E a b 0 0 0 0 ∧
    encode (.g2Psi a b) = encR 0x7F a b 0 0 0 0 ∧ encode (.g2Psi2 a b) = encR 0x7F a b 0 0 0 1 ∧
    encode (.g2Clrcof a b) = encR 0x7E a b 0 0 0 0) ∧
  ∀ (s : State) (a b : RegIdx),
    Runs (.g1Phi a b) s { g := [a] } (fun u =>
      (readG s b = .O → readG u a = .O) ∧
      ∀ x y, readG s b = .aff x y → ∃ x', readG u a = .aff x' y ∧ x'.val =
        0x5f19672fdf76ce51ba69c6076a0f77eaddb3a93be6f89688de17d813620a00022e01fffffffefffe * x.val % fieldP) ∧
    Runs (.g1Clrcof a b) s { g := [a] } (fun u =>
      readG u a = ptAdd opsFp (mul1 (readG s b) xAbs) (readG s b)) ∧
    Runs (.g2Psi a b) s { h := [a] } (fun u =>
      (readH s b = .O → readH u a = .O) ∧
      ∀ x y, readH s b = .aff x y →
        readH u a = .aff (qMul (qFrob x 1) psiCX) (qMul (qFrob y 1) psiCY)) ∧
    Runs (.g2Psi2 a b) s { h := [a] } (fun u => readH u a = psi (psi (readH s b))) ∧
    Runs (.g2Clrcof a b) s { h := [a] } (fun u =>
      let p := readH s b
      let mx := fun q => ptNeg opsFp2 (mul2 q xAbs)
      readH u a = ptSub opsFp2
        (ptSub opsFp2
          (ptAdd opsFp2 (ptSub opsFp2 (psi2 (ptDbl opsFp2 p)) (psi p)) (mx (ptAdd opsFp2 (mx p) (psi p))))
          (mx p)) p)

/-! Point loads and stores (R335 to R339, R378 to R382). -/

/-- `G1.STC`, `G1.STU`, `G2.STC`, `G2.STU` store the encodings of R312, R313, R356, R357, whatever the point; where
the access does not fit they take DmemRange and write nothing (R337, R338, R380, R381). `G1.STAFFN` and
`G2.STAFFN` store the uncompressed encodings of `r[c]` consecutive points; RegRange where the run passes
register 15, then DmemRange where the whole range does not fit, and then nothing is written; a count of 0 checks
no address (R339, R382). The flag bits of R312 and R356 and the sign of R314 the spec marks as from general
knowledge. -/
def Obligations.PointStores : Prop :=
  (∀ (a b c : RegIdx) (imm : BitVec 16),
    encode (.g1Stc a b imm) = encI 0xC2 a b imm ∧ encode (.g1Stu a b imm) = encI 0xC3 a b imm ∧
    encode (.g2Stc a b imm) = encI 0xC6 a b imm ∧ encode (.g2Stu a b imm) = encI 0xC7 a b imm ∧
    encode (.g1Staffn a b c) = encR 0xC8 a b c 0 0 0 ∧ encode (.g2Staffn a b c) = encR 0xC9 a b c 0 0 0) ∧
  (∀ (s : State) (a b : RegIdx) (imm : BitVec 16), Memory.wf s.dmem →
     let addr := effAddr s b imm
     let here := addr.toNat
     (here + 48 ≤ Config.dmemBytes → Runs (.g1Stc a b imm) s { memAt := here, memLen := 48 }
       (fun u => intAt u addr 48 = codeC1 (readG s a))) ∧
     (here + 96 ≤ Config.dmemBytes → Runs (.g1Stu a b imm) s { memAt := here, memLen := 96 }
       (fun u => intAt u addr 96 = codeU1 (readG s a))) ∧
     (here + 96 ≤ Config.dmemBytes → Runs (.g2Stc a b imm) s { memAt := here, memLen := 96 }
       (fun u => intAt u addr 96 = codeC2 (readH s a))) ∧
     (here + 192 ≤ Config.dmemBytes → Runs (.g2Stu a b imm) s { memAt := here, memLen := 192 }
       (fun u => intAt u addr 192 = codeU2 (readH s a))) ∧
     (Config.dmemBytes < here + 48 → Traps (.g1Stc a b imm) s .dmemRange addr) ∧
     (Config.dmemBytes < here + 96 → Traps (.g1Stu a b imm) s .dmemRange addr) ∧
     (Config.dmemBytes < here + 96 → Traps (.g2Stc a b imm) s .dmemRange addr) ∧
     (Config.dmemBytes < here + 192 → Traps (.g2Stu a b imm) s .dmemRange addr)) ∧
  (∀ (s : State) (a b c : RegIdx), Memory.wf s.dmem →
     let addr := readR s a
     let n := (readR s c).toNat
     (16 < b.val + n → Traps (.g1Staffn a b c) s .regRange 0 ∧ Traps (.g2Staffn a b c) s .regRange 0) ∧
     (b.val + n ≤ 16 →
       (Fits addr (96 * n) → Runs (.g1Staffn a b c) s { memAt := addr.toNat, memLen := 96 * n } (fun u =>
         ∀ j < n, intAt u (addr + BitVec.ofNat 32 (96 * j)) 96 = codeU1 (readG s (Fin.ofNat 16 (b.val + j))))) ∧
       (Fits addr (192 * n) → Runs (.g2Staffn a b c) s { memAt := addr.toNat, memLen := 192 * n } (fun u =>
         ∀ j < n, intAt u (addr + BitVec.ofNat 32 (192 * j)) 192 = codeU2 (readH s (Fin.ofNat 16 (b.val + j))))) ∧
       (¬Fits addr (96 * n) → Traps (.g1Staffn a b c) s .dmemRange addr) ∧
       (¬Fits addr (192 * n) → Traps (.g2Staffn a b c) s .dmemRange addr)))

/-- The round trip of R335 (and of R336, R378, R379): from bytes that encode a valid point, the identity included,
each load gives that point. The flag bits, the signs and the subgroup tests the spec marks as from general
knowledge (R309, R312, R314, R354, R356). -/
def Obligations.PointLoadsInvertTheEncodings : Prop :=
  (∀ (a b : RegIdx) (imm : BitVec 16),
    encode (.g1Ldc a b imm) = encI 0xC0 a b imm ∧ encode (.g1Ldu a b imm) = encI 0xC1 a b imm ∧
    encode (.g2Ldc a b imm) = encI 0xC4 a b imm ∧ encode (.g2Ldu a b imm) = encI 0xC5 a b imm) ∧
  ∀ (s : State) (a b : RegIdx) (imm : BitVec 16) (p : Point Fp) (q : Point Fp2),
    let addr := effAddr s b imm
    let here := addr.toNat
    OnCurve1 p → InSubgroup1 p → OnCurve2 q → InSubgroup2 q →
    (here + 48 ≤ Config.dmemBytes → intAt s addr 48 = codeC1 p →
      Runs (.g1Ldc a b imm) s { g := [a] } (fun u => readG u a = p)) ∧
    (here + 96 ≤ Config.dmemBytes → intAt s addr 96 = codeU1 p →
      Runs (.g1Ldu a b imm) s { g := [a] } (fun u => readG u a = p)) ∧
    (here + 96 ≤ Config.dmemBytes → intAt s addr 96 = codeC2 q →
      Runs (.g2Ldc a b imm) s { h := [a] } (fun u => readH u a = q)) ∧
    (here + 192 ≤ Config.dmemBytes → intAt s addr 192 = codeU2 q →
      Runs (.g2Ldu a b imm) s { h := [a] } (fun u => readH u a = q))

/-- What the loads refuse, check by check: the compressed ones in the order of R335 and R378 (DmemRange, BadFlags,
NonCanonicalField, NotOnCurve for want of a square root, NotInSubgroup), the uncompressed ones in the order of
R336 and R379. `B` and `D` are the integers of the bytes. The flag bits, the signs and the subgroup tests the
spec marks as from general knowledge (R309, R312, R314, R354, R356). -/
def Obligations.PointLoadsRefuse : Prop :=
  (∀ (a b : RegIdx) (imm : BitVec 16),
    encode (.g1Ldc a b imm) = encI 0xC0 a b imm ∧ encode (.g2Ldc a b imm) = encI 0xC4 a b imm ∧
    encode (.g1Ldu a b imm) = encI 0xC1 a b imm ∧ encode (.g2Ldu a b imm) = encI 0xC5 a b imm) ∧
  (∀ (s : State) (a b : RegIdx) (imm : BitVec 16),
     let addr := effAddr s b imm
     let here := addr.toNat
     let B := intAt s addr 48
     let x := B % 2 ^ 381
     let D := intAt s addr 96
     let x1 := D / 2 ^ 384 % 2 ^ 381
     let x0 := D % 2 ^ 384
     (Config.dmemBytes < here + 48 → Traps (.g1Ldc a b imm) s .dmemRange addr) ∧
     (here + 48 ≤ Config.dmemBytes →
       (B.testBit 383 = false → Traps (.g1Ldc a b imm) s .badFlags 0) ∧
       (B.testBit 383 = true → B.testBit 382 = true → (B.testBit 381 = true ∨ x ≠ 0) →
         Traps (.g1Ldc a b imm) s .badFlags 0) ∧
       (B.testBit 383 = true → B.testBit 382 = false →
         (fieldP ≤ x → Traps (.g1Ldc a b imm) s .nonCanonicalField 0) ∧
         (x < fieldP → (¬∃ y : Fp, y.val * y.val % fieldP = (x ^ 3 + 4) % fieldP) →
           Traps (.g1Ldc a b imm) s .notOnCurve 0) ∧
         ∀ y : Fp, x < fieldP → y.val * y.val % fieldP = (x ^ 3 + 4) % fieldP →
           (B.testBit 381 = true ↔ (fieldP - 1) / 2 < y.val) → ¬InSubgroup1 (.aff (toFp x) y) →
           Traps (.g1Ldc a b imm) s .notInSubgroup 0)) ∧
     (Config.dmemBytes < here + 96 → Traps (.g2Ldc a b imm) s .dmemRange addr) ∧
     (here + 96 ≤ Config.dmemBytes →
       (D.testBit 767 = false → Traps (.g2Ldc a b imm) s .badFlags 0) ∧
       (D.testBit 767 = true → D.testBit 766 = true → (D.testBit 765 = true ∨ x1 ≠ 0 ∨ x0 ≠ 0) →
         Traps (.g2Ldc a b imm) s .badFlags 0) ∧
       (D.testBit 767 = true → D.testBit 766 = false →
         (fieldP ≤ x1 ∨ fieldP ≤ x0 → Traps (.g2Ldc a b imm) s .nonCanonicalField 0) ∧
         (x1 < fieldP → x0 < fieldP → (¬∃ y : Fp2, OnCurve2 (.aff (mkFp2 x0 x1) y)) →
           Traps (.g2Ldc a b imm) s .notOnCurve 0) ∧
         ∀ y : Fp2, x1 < fieldP → x0 < fieldP → OnCurve2 (.aff (mkFp2 x0 x1) y) →
           (D.testBit 765 = true ↔ signBit2 y = 1) → ¬InSubgroup2 (.aff (mkFp2 x0 x1) y) →
           Traps (.g2Ldc a b imm) s .notInSubgroup 0))) ∧
  (∀ (s : State) (a b : RegIdx) (imm : BitVec 16),
     let addr := effAddr s b imm
     let here := addr.toNat
     let B := intAt s addr 96
     let x := B / 2 ^ 384 % 2 ^ 381
     let y := B % 2 ^ 384
     let D := intAt s addr 192
     let x1 := D / 2 ^ 1152 % 2 ^ 381
     let x0 := D / 2 ^ 768 % 2 ^ 384
     let y1 := D / 2 ^ 384 % 2 ^ 384
     let y0 := D % 2 ^ 384
     (Config.dmemBytes < here + 96 → Traps (.g1Ldu a b imm) s .dmemRange addr) ∧
     (here + 96 ≤ Config.dmemBytes →
       (B.testBit 767 = true ∨ B.testBit 765 = true → Traps (.g1Ldu a b imm) s .badFlags 0) ∧
       (B.testBit 767 = false → B.testBit 765 = false →
         (B.testBit 766 = true → x ≠ 0 ∨ y ≠ 0 → Traps (.g1Ldu a b imm) s .badFlags 0) ∧
         (B.testBit 766 = false →
           (fieldP ≤ x ∨ fieldP ≤ y → Traps (.g1Ldu a b imm) s .nonCanonicalField 0) ∧
           (x < fieldP → y < fieldP →
             (¬OnCurve1 (.aff (toFp x) (toFp y)) → Traps (.g1Ldu a b imm) s .notOnCurve 0) ∧
             (OnCurve1 (.aff (toFp x) (toFp y)) → ¬InSubgroup1 (.aff (toFp x) (toFp y)) →
               Traps (.g1Ldu a b imm) s .notInSubgroup 0))))) ∧
     (Config.dmemBytes < here + 192 → Traps (.g2Ldu a b imm) s .dmemRange addr) ∧
     (here + 192 ≤ Config.dmemBytes →
       (D.testBit 1535 = true ∨ D.testBit 1533 = true → Traps (.g2Ldu a b imm) s .badFlags 0) ∧
       (D.testBit 1535 = false → D.testBit 1533 = false →
         (D.testBit 1534 = true → x1 ≠ 0 ∨ x0 ≠ 0 ∨ y1 ≠ 0 ∨ y0 ≠ 0 → Traps (.g2Ldu a b imm) s .badFlags 0) ∧
         (D.testBit 1534 = false →
           (fieldP ≤ x1 ∨ fieldP ≤ x0 ∨ fieldP ≤ y1 ∨ fieldP ≤ y0 →
             Traps (.g2Ldu a b imm) s .nonCanonicalField 0) ∧
           (x1 < fieldP → x0 < fieldP → y1 < fieldP → y0 < fieldP →
             (¬OnCurve2 (.aff (mkFp2 x0 x1) (mkFp2 y0 y1)) → Traps (.g2Ldu a b imm) s .notOnCurve 0) ∧
             (OnCurve2 (.aff (mkFp2 x0 x1) (mkFp2 y0 y1)) → ¬InSubgroup2 (.aff (mkFp2 x0 x1) (mkFp2 y0 y1)) →
               Traps (.g2Ldu a b imm) s .notInSubgroup 0))))))

/-! The pairing engine (R401 to R408). -/

/-- `PAIR.ML` writes the Miller value and `PAIR` its final exponentiation where both operands pass the check of
R401, and both take NoPairingExistsAtPointOfInfinity where either does not (R405, R407, R408). The premise that
the Miller value is not zero is a fact R405 states without a proof; the branch it excludes is kept (assumption
log 9). The steps of R402 and R403 the spec marks as from general knowledge. -/
def Obligations.PairingsRunOnValidPoints : Prop :=
  (∀ (a b c : RegIdx),
    encode (.pairMl a b c) = encR 0x83 a b c 0 0 0 ∧ encode (.pair a b c) = encR 0x84 a b c 0 0 0) ∧
  ∀ (s : State) (a b c : RegIdx),
    (¬Pairable (readG s b) (readH s c) →
      Traps (.pairMl a b c) s .noPairing 0 ∧ Traps (.pair a b c) s .noPairing 0) ∧
    ∀ px py qx qy, readG s b = .aff px py → readH s c = .aff qx qy → Pairable (readG s b) (readH s c) →
      Runs (.pairMl a b c) s { t := [a] } (fun u => readT u a = millerAff px py qx qy) ∧
      (millerAff px py qx qy ≠ zero12 → Runs (.pair a b c) s { t := [a] } (fun u =>
        readT u a = repMul tMul one12 (millerAff px py qx qy) (3 * ((fieldP ^ 12 - 1) / orderR))))

/-- The line list of R404 has 68 triples, and the Miller value is that of one walk over bits 62 to 0 of `X_ABS` that
carries the running point and the accumulator together and keeps no list. The steps of R402 and R403 the spec
marks as from general knowledge. -/
def Obligations.MillerLoopNeedsNoList : Prop :=
  ∀ (px py : Fp) (qx qy : Fp2) (walk : Nat → Triple → Fp12 → Fp12),
    (∀ r f, walk 0 r f = f) →
    (∀ i r f, walk (i + 1) r f =
      let d := dblStep r
      let f1 := tMul014 f d.2.1 (qMulf d.2.2.1 px) (qMulf d.2.2.2 py)
      let e := addStep d.1 qx qy
      let f2 := tMul014 f1 e.2.1 (qMulf e.2.2.1 px) (qMulf e.2.2.2 py)
      let r' := if xAbs.testBit i then e.1 else d.1
      let f' := if xAbs.testBit i then f2 else f1
      walk i r' (if i = 0 then f' else tMul f' f')) →
    (lineCoeffs qx qy).length = 68 ∧ millerAff px py qx qy = tConj (walk 63 (qx, qy, one2) one12)

/-- The two steps, each component of the emitted triple and of the running point (R402, R403). The doubling step
emits `(t2 - t0, 3·Rx², -2·Ry·Rz)` with `t0 = Ry²` and `t2 = 3·b2·Rz²`, the addition step `(t0·Qx - t1·Qy, -t0,
t1)` with `t0 = Ry - Qy·Rz` and `t1 = Rx - Qx·Rz`; where R402 multiplies by `INV2`, the double of the component
is stated. After a doubling step the running point represents the double of the class before, for a class on E2
with `y` not zero, and after an addition step the sum with `Q`, where the `x` differ. The spec marks both steps
as from general knowledge. -/
def Obligations.LineStepsFollowTheCurve : Prop :=
  ∀ rx ry rz qx qy : Fp2,
    (let n := (dblStep (rx, ry, rz)).1
      let c := (dblStep (rx, ry, rz)).2
      let t0 := qMul ry ry
      let t2 := qMul (mkFp2 12 12) (qMul rz rz)
      let t3 := qMul (mkFp2 3 0) t2
      let t4 := qMul (mkFp2 2 0) (qMul ry rz)
      c.1 = qSub t2 t0 ∧ c.2.1 = qMul (mkFp2 3 0) (qMul rx rx) ∧ c.2.2 = qNeg t4 ∧
      qMul (mkFp2 2 0) n.1 = qMul (qMul (qSub t0 t3) rx) ry ∧
      qMul (mkFp2 4 0) n.2.1 = qSub (qMul (qAdd t0 t3) (qAdd t0 t3)) (qMul (mkFp2 12 0) (qMul t2 t2)) ∧
      n.2.2 = qMul t0 t4) ∧
    (let n := (addStep (rx, ry, rz) qx qy).1
      let c := (addStep (rx, ry, rz) qx qy).2
      let t0 := qSub ry (qMul qy rz)
      let t1 := qSub rx (qMul qx rz)
      let t3 := qMul t1 (qMul t1 t1)
      let t4 := qMul (qMul t1 t1) rx
      let t5 := qAdd (qSub t3 (qAdd t4 t4)) (qMul (qMul t0 t0) rz)
      c.1 = qSub (qMul t0 qx) (qMul t1 qy) ∧ c.2.1 = qNeg t0 ∧ c.2.2 = t1 ∧
      n.1 = qMul t1 t5 ∧ n.2.1 = qSub (qMul (qSub t4 t5) t0) (qMul t3 ry) ∧ n.2.2 = qMul rz t3) ∧
    (rz ≠ zero2 → ry ≠ zero2 → OnCurve2 (toAffine opsFp2 rx ry rz) →
      let n := (dblStep (rx, ry, rz)).1
      n.2.2 ≠ zero2 ∧ toAffine opsFp2 n.1 n.2.1 n.2.2 = ptDbl opsFp2 (toAffine opsFp2 rx ry rz)) ∧
    (rz ≠ zero2 → rx ≠ qMul qx rz →
      let n := (addStep (rx, ry, rz) qx qy).1
      n.2.2 ≠ zero2 ∧ toAffine opsFp2 n.1 n.2.1 n.2.2 = ptAdd opsFp2 (toAffine opsFp2 rx ry rz) (.aff qx qy))

/-! Hash to curve (R421 to R436). -/

/-- `expand_message_xmd` for every hash function (R421): the blocks `B[0], B[1], ...` joined and cut to `L` bytes,
with the tag hashed down when it is longer than 255 bytes. Details of R421 the spec marks as from general
knowledge. -/
def Obligations.ExpanderFollowsR421 : Prop :=
  ∀ (sha : List Byte → List Byte) (msg dst : List Byte) (L : Nat), L ≤ 8160 →
    let short := if 255 < dst.length then
      sha ([0x48, 0x32, 0x43, 0x2D, 0x4F, 0x56, 0x45, 0x52, 0x53, 0x49, 0x5A, 0x45, 0x2D, 0x44, 0x53, 0x54, 0x2D] ++ dst)
      else dst
    let D' := short ++ [BitVec.ofNat 8 short.length]
    let m' := sha (List.replicate 64 0 ++ msg ++ [BitVec.ofNat 8 (L / 256), BitVec.ofNat 8 L] ++ [0] ++ D')
    ∃ B : Nat → List Byte, B 0 = sha (m' ++ [1] ++ D') ∧
      (∀ i, B (i + 1) = sha (List.zipWith (· ^^^ ·) m' (B i) ++ [BitVec.ofNat 8 (i + 2)] ++ D')) ∧
      xmd sha msg dst L = ((List.range ((L + 31) / 32)).flatMap B).take L

/-- `H2C.DST` (R430): the tag is the bytes, of any length up to 2048; BadLength for more, before any read, then
DmemRange; on either the old tag is kept. `H2C.XMD` (R431) and `H2C.H2F` (R422, R432): the message is read,
whole, before anything is written; of the two destinations of `H2C.H2F` the second stays. The hash is the
model's SHA-256 (assumption log 3). Details of R421 and R422 the spec marks as from general knowledge. -/
def Obligations.TagAndExpanderInstructions : Prop :=
  (∀ (a b c d : RegIdx),
    encode (.h2cDst b c) = encR 0x90 0 b c 0 0 0 ∧ encode (.h2cXmd a b c d) = encR 0x91 a b c d 0 0 ∧
    encode (.h2cH2f a b c d) = encR 0x92 a b c d 0 0) ∧
  (∀ (s : State) (b c : RegIdx),
     let addr := readR s b
     let n := (readR s c).toNat
     (n ≤ 2048 → Fits addr n →
       ∃ u, exec (.h2cDst b c) s = .next u ∧ u.pc = s.pc + 1 ∧ u.dstBuf = bytesAt s addr n ∧ u.dstBuf.length = n ∧
         Frame {} s u) ∧
     (2048 < n → Traps (.h2cDst b c) s .badLength 0) ∧
     (n ≤ 2048 → ¬Fits addr n → Traps (.h2cDst b c) s .dmemRange addr)) ∧
  (∀ (s : State) (a b c d : RegIdx),
     (let out := readR s a
      let len := (readR s d).toNat
      let fits := Fits (readR s b) (readR s c).toNat
      (8160 < len → Traps (.h2cXmd a b c d) s .badLength 0) ∧
      (len ≤ 8160 → ¬fits → Traps (.h2cXmd a b c d) s .dmemRange (readR s b)) ∧
      (len ≤ 8160 → fits → ¬Fits out len → Traps (.h2cXmd a b c d) s .dmemRange out) ∧
      (len ≤ 8160 → fits → Fits out len → Memory.wf s.dmem →
        Runs (.h2cXmd a b c d) s { memAt := out.toNat, memLen := len } (fun u =>
          bytesAt u out len = xmd sha256 (bytesAt s (readR s b) (readR s c).toNat) s.dstBuf len))) ∧
     (let fits := Fits (readR s c) (readR s d).toNat
      let U := xmd sha256 (bytesAt s (readR s c) (readR s d).toNat) s.dstBuf 256
      let part := fun i => os2ip ((U.drop (64 * i)).take 64) % fieldP
      (¬fits → Traps (.h2cH2f a b c d) s .dmemRange (readR s c)) ∧
      (fits → Runs (.h2cH2f a b c d) s { q := [a, b] } (fun u =>
        (a ≠ b → (readQ u a).c0.val = part 0 ∧ (readQ u a).c1.val = part 1) ∧
        (readQ u b).c0.val = part 2 ∧ (readQ u b).c1.val = part 3))))

/-- `H2C.SWU` (R424, R433): the pair lies on E′, its `x` is the first candidate where that one gives a square and
`Z·u²` times it where not, the candidate being fixed by its denominators, and the sign of `y` is that of `u`.
The map of R424 and its constants (R15) the spec marks as from general knowledge. -/
def Obligations.SimplifiedSwuLandsOnTheIsogenousCurve : Prop :=
  (∀ (a b : RegIdx),
    encode (.h2cSwu a b) = encR 0x93 a b 0 0 0 0) ∧
  ∀ (s : State) (a b : RegIdx),
    Runs (.h2cSwu a b) s { h := [a] } (fun u =>
      let A' := mkFp2 0 240
      let B' := mkFp2 1012 1012
      let Z := mkFp2 (fieldP - 2) (fieldP - 1)
      let g := fun x => qAdd (qAdd (qMul (qMul x x) x) (qMul A' x)) B'
      let zu2 := qMul Z (qMul (readQ s b) (readQ s b))
      let tv1 := qAdd (qMul zu2 zu2) zu2
      ∃ x1 x y : Fp2, readH u a = .aff x y ∧
        (tv1 = zero2 → qMul x1 (qMul Z A') = B') ∧
        (tv1 ≠ zero2 → qMul x1 (qMul A' tv1) = qNeg (qMul B' (qAdd tv1 one2))) ∧
        ((∃ z, qMul z z = g x1) → x = x1) ∧
        ((¬∃ z, qMul z z = g x1) → x = qMul zu2 x1) ∧
        qMul y y = g x ∧
        (y ≠ zero2 → qSgn0 y = qSgn0 (readQ s b)))

/-- `H2C.ISO` (R426, R434): the quotients by their defining products, `O` for `O` and for a zero denominator; and a
pair of E′ goes to E2 (R426). The coefficients of R16, which `ConstantsMeetTheirPins` states, the spec marks as
from general knowledge. -/
def Obligations.IsogenyLandsOnTheCurve : Prop :=
  (∀ (a b : RegIdx),
    encode (.h2cIso a b) = encR 0x94 a b 0 0 0 0) ∧
  ∀ (s : State) (a b : RegIdx),
    Runs (.h2cIso a b) s { h := [a] } (fun u =>
      let pol := fun (k : List Fp2) (x : Fp2) =>
        qAdd (qAdd (k.getD 0 zero2) (qMul (k.getD 1 zero2) x))
          (qAdd (qMul (k.getD 2 zero2) (qMul x x)) (qMul (k.getD 3 zero2) (qMul x (qMul x x))))
      (readH s b = .O → readH u a = .O) ∧
      ∀ x y, readH s b = .aff x y →
        (pol isoXDen x = zero2 ∨ pol isoYDen x = zero2 → readH u a = .O) ∧
        (pol isoXDen x ≠ zero2 → pol isoYDen x ≠ zero2 → ∃ x' y', readH u a = .aff x' y' ∧
          qMul x' (pol isoXDen x) = pol isoXNum x ∧ qMul y' (pol isoYDen x) = qMul y (pol isoYNum x)) ∧
        (qMul y y = qAdd (qAdd (qMul (qMul x x) x) (qMul (mkFp2 0 240) x)) (mkFp2 1012 1012) →
          OnCurve2 (readH u a)))

/-- `H2C.MAP` (R427, R435) and `H2C.HASH` (R428, R436) are the composition of the stages: map, isogeny, sum,
cofactor. The hash is the model's SHA-256 (assumption log 3). Details of the stages the spec marks as from
general knowledge (R15, R16, R421 to R424). -/
def Obligations.HashingComposesItsStages : Prop :=
  (∀ (a b c : RegIdx),
    encode (.h2cMap a b c) = encR 0x95 a b c 0 0 0 ∧ encode (.h2cHash a b c) = encR 0x96 a b c 0 0 0) ∧
  ∀ (s : State) (a b c : RegIdx),
    let stages := fun u0 u1 => clear2 (ptAdd opsFp2 (iso (sswu u0)) (iso (sswu u1)))
    Runs (.h2cMap a b c) s { h := [a] } (fun u => readH u a = stages (readQ s b) (readQ s c)) ∧
    (Fits (readR s b) (readR s c).toNat → Runs (.h2cHash a b c) s { h := [a] } (fun u =>
      ∃ u0 u1, hashToField sha256 (bytesAt s (readR s b) (readR s c).toNat) s.dstBuf = (u0, u1) ∧
        readH u a = stages u0 u1)) ∧
    (¬Fits (readR s b) (readR s c).toNat → Traps (.h2cHash a b c) s .dmemRange (readR s b))

/-! BLS (R451 to R461). -/

/-- `BLS.PK`, `BLS.SIGN`, `BLS.SIGNP`: ScalarOutOfRange unless `0 < s <= r`, then the multiple of the generator, of
the hashed message point (which goes to `h[b]`, the signature staying when both name one register), or of the
given point (R454, R455, R456). The multiplications and the hash rest on rules the spec marks as from general
knowledge (R302, R303, R421 to R424), the hash on assumption log 3. -/
def Obligations.KeysAndSignatures : Prop :=
  (∀ (a b c d e : RegIdx),
    encode (.blsPk a b) = encR 0xA0 a b 0 0 0 0 ∧ encode (.blsSign a b c d e) = encR 0xA1 a b c d e 0 ∧
    encode (.blsSignp a b c) = encR 0xA2 a b c 0 0 0) ∧
  ∀ (s : State) (a b c d e : RegIdx),
    let good := fun (k : RegIdx) => 0 < (readK s k).toNat ∧ (readK s k).toNat ≤ orderR
    let fits := Fits (readR s d) (readR s e).toNat
    (good b → Runs (.blsPk a b) s { g := [a] } (fun u => readG u a = mul1 gen1 (readK s b).toNat)) ∧
    (¬good b → Traps (.blsPk a b) s .scalarOutOfRange 0) ∧
    (good c → fits → Runs (.blsSign a b c d e) s { h := [a, b] } (fun u =>
      let m := hashToG2 sha256 (bytesAt s (readR s d) (readR s e).toNat) s.dstBuf
      readH u a = mul2 m (readK s c).toNat ∧ (a ≠ b → readH u b = m))) ∧
    (¬good c → Traps (.blsSign a b c d e) s .scalarOutOfRange 0) ∧
    (good c → ¬fits → Traps (.blsSign a b c d e) s .dmemRange (readR s d)) ∧
    (good b → Runs (.blsSignp a b c) s { h := [a] } (fun u => readH u a = mul2 (readH s c) (readK s b).toNat)) ∧
    (¬good b → Traps (.blsSignp a b c) s .scalarOutOfRange 0)

/-- `BLS.VERIFY` and `BLS.VERIFYB` (R451, R453, R457, R458): 1 exactly when both Miller values exist and the product
of the two, exponentiated, is one; 0 otherwise, whatever fails inside; only the message range of `BLS.VERIFYB`
is raised. The pairing rests on formulas the spec marks as from general knowledge (R276, R402, R403), the hash
on assumption log 3. -/
def Obligations.VerificationNeverRaisesInternally : Prop :=
  (∀ (a b c d e : RegIdx),
    encode (.blsVerify a b c d) = encR 0xA3 a b c d 0 0 ∧ encode (.blsVerifyb a b c d e) = encR 0xA4 a b c d e 0) ∧
  ∀ (s : State) (a b c d e : RegIdx),
    let accepts := fun (pk : Point Fp) (sig m : Point Fp2) =>
      ∃ A B, pairMl (ptNeg opsFp pk) m = .ok A ∧ pairMl gen1 sig = .ok B ∧ tFinalexp (tMul A B) = .ok one12
    Runs (.blsVerify a b c d) s { r := [a] } (fun u => Answers u a (accepts (readG s b) (readH s c) (readH s d))) ∧
    (Fits (readR s d) (readR s e).toNat → Runs (.blsVerifyb a b c d e) s { r := [a] } (fun u =>
      Answers u a (accepts (readG s b) (readH s c)
        (hashToG2 sha256 (bytesAt s (readR s d) (readR s e).toNat) s.dstBuf)))) ∧
    (¬Fits (readR s d) (readR s e).toNat → Traps (.blsVerifyb a b c d e) s .dmemRange (readR s d))

/-- `BLS.AGGPK` and `BLS.AGGSIG` (R459, R460): EmptyList, then RegRange, then the sum of the registers from the
first on, read before the destination is written. The sums are those of R302 and R303, which the spec marks as
from general knowledge. -/
def Obligations.AggregatesSumTheirRuns : Prop :=
  (∀ (a b c : RegIdx),
    encode (.blsAggpk a b c) = encR 0xA5 a b c 0 0 0 ∧ encode (.blsAggsig a b c) = encR 0xA6 a b c 0 0 0) ∧
  ∀ (s : State) (a b c : RegIdx),
    let n := (readR s c).toNat
    (n = 0 → Traps (.blsAggpk a b c) s .emptyList 0 ∧ Traps (.blsAggsig a b c) s .emptyList 0) ∧
    (0 < n → 16 < b.val + n → Traps (.blsAggpk a b c) s .regRange 0 ∧ Traps (.blsAggsig a b c) s .regRange 0) ∧
    (0 < n → b.val + n ≤ 16 →
      Runs (.blsAggpk a b c) s { g := [a] } (fun u => ∀ S : Nat → Point Fp, S 0 = .O →
        (∀ j < n, S (j + 1) = ptAdd opsFp (S j) (readG s (Fin.ofNat 16 (b.val + j)))) → readG u a = S n) ∧
      Runs (.blsAggsig a b c) s { h := [a] } (fun u => ∀ S : Nat → Point Fp2, S 0 = .O →
        (∀ j < n, S (j + 1) = ptAdd opsFp2 (S j) (readH s (Fin.ofNat 16 (b.val + j)))) → readH u a = S n))

/-- `BLS.VERIFYN` (R452, R453, R461): EmptyList, LengthMismatch, RegRange in that order; then 1 exactly when every
group of equal message points has a Miller value with the sum of its keys, so has the aggregate signature with
the negated generator, and the product of them all, exponentiated, is one; else 0, whatever fails inside. `acc
i` is the accumulator before message `i`, `S i j` the key sum of the group of message `i` over keys before `j`.
The pairing rests on formulas the spec marks as from general knowledge (R276, R402, R403). -/
def Obligations.BatchVerification : Prop :=
  (∀ (a b c d e n : RegIdx),
    encode (.blsVerifyn a b c d e n) = encR 0xA7 a b c d e n) ∧
  ∀ (s : State) (a b c d e n : RegIdx),
    let npk := (readR s d).toNat
    let nmsg := (readR s e).toNat
    let pk := fun j => readG s (Fin.ofNat 16 (b.val + j))
    let msg := fun j => readH s (Fin.ofNat 16 (c.val + j))
    (nmsg = 0 → Traps (.blsVerifyn a b c d e n) s .emptyList 0) ∧
    (0 < nmsg → npk ≠ nmsg → Traps (.blsVerifyn a b c d e n) s .lengthMismatch 0) ∧
    (0 < nmsg → npk = nmsg → (16 < b.val + npk ∨ 16 < c.val + nmsg) →
      Traps (.blsVerifyn a b c d e n) s .regRange 0) ∧
    (0 < nmsg → npk = nmsg → b.val + npk ≤ 16 → c.val + nmsg ≤ 16 →
      Runs (.blsVerifyn a b c d e n) s { r := [a] } (fun u => Answers u a
        (∃ (S : Nat → Nat → Point Fp) (acc : Nat → Fp12) (A : Fp12),
          (∀ i, S i 0 = .O) ∧
          (∀ i j, S i (j + 1) = if msg j = msg i then ptAdd opsFp (S i j) (pk j) else S i j) ∧
          acc 0 = one12 ∧
          (∀ i < nmsg, (∃ j < i, msg j = msg i) → acc (i + 1) = acc i) ∧
          (∀ i < nmsg, (¬∃ j < i, msg j = msg i) →
            ∃ A', pairMl (S i nmsg) (msg i) = .ok A' ∧ acc (i + 1) = tMul (acc i) A') ∧
          pairMl (ptNeg opsFp gen1) (readH s n) = .ok A ∧
          tFinalexp (tMul (acc nmsg) A) = .ok one12)))

/-! The host window (R42 to R50, R77, R78, R86, R87, R493). -/

/-- START and BUSY (R43, R78): a write of 1 to CMD starts a run and changes nothing but what R43 lists; while BUSY
every write but those to the interrupt registers is ignored and the memory images read 0. The interrupt registers
and lines (R49, R50, R493): `INTR_ENABLE` keeps two bits, a write to `INTR_STATE` clears exactly the bits written 1, a
bit the sequencer sets in the same step stays set, and each line is a bit of the one and the same bit of the other.
What the host reads of a run (R44, R46, R50, R470): the code of the run state, and the cause, the interrupt enables
and the interrupt bits with every reserved bit 0, under `Inv` whole. After a step that took an exception it reads
ERROR, the code of the cause, the `pc` of the faulting instruction and the information word, with `error` set; after
`HALT` DONE, no cause, and `done` set. -/
def Obligations.HostRegistersStartAndInterrupts : Prop :=
  (∀ (s : State) (v : Word) (off : Nat),
     (s.status ≠ .busy →
       (v.getLsbD 0 = true → hostWrite s 0x00 v =
         { s with pc := s.startPc, ecause := 0, epc := 0, einfo := 0, status := .busy }) ∧
       (v.getLsbD 0 = false → hostWrite s 0x00 v = s) ∧
       hostWrite s 0x08 v = { s with startPc := v }) ∧
     (s.status = .busy →
       (off ≠ 0x18 → off ≠ 0x1C → hostWrite s off v = s) ∧
       (0x4000 ≤ off → hostRead s off = 0)) ∧
     hostRead s 0x00 = 0 ∧ hostRead s 0x08 = s.startPc ∧ hostRead s 0x10 = s.epc ∧ hostRead s 0x14 = s.einfo ∧
     (s.status = .busy → hostRead s 0x04 = 1)) ∧
  (∀ (s : State) (v : Word),
     (hostWrite s 0x18 v).intrEnable = v &&& 3 ∧ hostRead (hostWrite s 0x18 v) 0x18 = v &&& 3 ∧
     hostWrite s 0x1C v = { s with intrState := s.intrState &&& ~~~v } ∧
     (∀ u, s.status = .busy → stepClearing s v = .next u →
       (u.status = .done → u.intrState.getLsbD 0 = true) ∧ (u.status = .error → u.intrState.getLsbD 1 = true)) ∧
     (irqDone s = true ↔ s.intrState.getLsbD 0 = true ∧ s.intrEnable.getLsbD 0 = true) ∧
     (irqError s = true ↔ s.intrState.getLsbD 1 = true ∧ s.intrEnable.getLsbD 1 = true)) ∧
  ((∀ s : State,
     hostRead s 0x04 = (match s.status with | .idle => 0 | .busy => 1 | .done => 2 | .error => 3) ∧
     (∀ k, 8 ≤ k → (hostRead s 0x0C).getLsbD k = false) ∧
     (∀ k, 2 ≤ k → (hostRead s 0x18).getLsbD k = false ∧ (hostRead s 0x1C).getLsbD k = false) ∧
     (Inv s → hostRead s 0x0C = s.ecause ∧ hostRead s 0x18 = s.intrEnable ∧ hostRead s 0x1C = s.intrState)) ∧
   ∀ s u : State, Inv s → s.status = .busy → step s = .next u →
     (hostRead u 0x04 = 1 ∨ hostRead u 0x04 = 2 ∨ hostRead u 0x04 = 3) ∧
     (hostRead u 0x04 = 1 → hostRead u 0x0C = 0 ∧ hostRead u 0x1C = s.intrState) ∧
     (hostRead u 0x04 = 2 → hostRead u 0x0C = 0 ∧ hostRead u 0x10 = 0 ∧ hostRead u 0x14 = 0 ∧
       hostRead u 0x1C = s.intrState ||| 1) ∧
     (hostRead u 0x04 = 3 → ∃ c info, u = trapped s c info ∧ c ≠ .noDivisorIndex ∧
       hostRead u 0x0C = BitVec.ofNat 32 (causeCode c) ∧ hostRead u 0x10 = s.pc ∧ hostRead u 0x14 = info ∧
       hostRead u 0x1C = s.intrState ||| 2))

/-- The memory images of an engine that is not BUSY (R77, R86, R87): what the host writes to a word of IMEM the next
fetch of that index reads, a word of DMEM is four big-endian bytes, both read back, and offsets that are not aligned
or map to nothing read 0 and ignore writes. Where the images end is said in `IMEM_WORDS` and `DMEM_BYTES`, the
parameters of R5; no clause rests on the sizes they have in this model (assumption log 1). -/
def Obligations.HostWindowImages : Prop :=
  ∀ (s : State) (v : Word) (i : Nat), Memory.wf s.dmem → Cells.wf Config.imemWords s.imem → s.status ≠ .busy →
    (i < Config.imemWords →
      let u := hostWrite s (0x4000 + 4 * i) v
      cellsRead u.imem i = v ∧ (∀ j, j ≠ i → cellsRead u.imem j = cellsRead s.imem j) ∧
      hostRead u (0x4000 + 4 * i) = v ∧ u = { s with imem := u.imem }) ∧
    (4 * i < Config.dmemBytes →
      let u := hostWrite s (0x10000 + 4 * i) v
      cellsRead u.dmem (4 * i) = v.extractLsb' 24 8 ∧ cellsRead u.dmem (4 * i + 1) = v.extractLsb' 16 8 ∧
      cellsRead u.dmem (4 * i + 2) = v.extractLsb' 8 8 ∧ cellsRead u.dmem (4 * i + 3) = v.extractLsb' 0 8 ∧
      (∀ j, j < 4 * i ∨ 4 * i + 4 ≤ j → cellsRead u.dmem j = cellsRead s.dmem j) ∧
      hostRead u (0x10000 + 4 * i) = v ∧ u = { s with dmem := u.dmem }) ∧
    ((i % 4 ≠ 0 ∨ (0x20 ≤ i ∧ i < 0x4000) ∨ (0x4000 + 4 * Config.imemWords ≤ i ∧ i < 0x10000) ∨
        0x10000 + Config.dmemBytes ≤ i) →
      hostRead s i = 0 ∧ hostWrite s i v = s)
end

