-- ==== Sys2Proof/Laws/Encoding.lean ====
section
/-! SUPPORT. What the field extractors of Decode.lean read from the words `encR` and `encI` build, and back
(spec/30_encoding.md R101, R102), so that no proof about decoding unfolds a bit operation. -/

namespace Sys2Proof

@[simp] theorem fieldOp_encR (op : Nat) (a b c d e n : RegIdx) : fieldOp (encR op a b c d e n) = op % 256 := by
  have h : (encR op a b c d e n).extractLsb' 24 8 = BitVec.ofNat 8 op := by
    ext i hi
    simp only [encR, BitVec.getElem_extractLsb', BitVec.getLsbD_append]
    interval_cases i <;> simp [BitVec.getLsbD_eq_getElem]
  exact congrArg BitVec.toNat h

@[simp] theorem fieldA_encR (op : Nat) (a b c d e n : RegIdx) : fieldA (encR op a b c d e n) = a := by
  have h : (encR op a b c d e n).extractLsb' 20 4 = BitVec.ofFin (w := 4) a := by
    ext i hi
    simp only [encR, BitVec.getElem_extractLsb', BitVec.getLsbD_append]
    interval_cases i <;> simp [BitVec.getLsbD_eq_getElem]
  exact congrArg BitVec.toFin h

@[simp] theorem fieldB_encR (op : Nat) (a b c d e n : RegIdx) : fieldB (encR op a b c d e n) = b := by
  have h : (encR op a b c d e n).extractLsb' 16 4 = BitVec.ofFin (w := 4) b := by
    ext i hi
    simp only [encR, BitVec.getElem_extractLsb', BitVec.getLsbD_append]
    interval_cases i <;> simp [BitVec.getLsbD_eq_getElem]
  exact congrArg BitVec.toFin h

@[simp] theorem fieldC_encR (op : Nat) (a b c d e n : RegIdx) : fieldC (encR op a b c d e n) = c := by
  have h : (encR op a b c d e n).extractLsb' 12 4 = BitVec.ofFin (w := 4) c := by
    ext i hi
    simp only [encR, BitVec.getElem_extractLsb', BitVec.getLsbD_append]
    interval_cases i <;> simp [BitVec.getLsbD_eq_getElem]
  exact congrArg BitVec.toFin h

@[simp] theorem fieldD_encR (op : Nat) (a b c d e n : RegIdx) : fieldD (encR op a b c d e n) = d := by
  have h : (encR op a b c d e n).extractLsb' 8 4 = BitVec.ofFin (w := 4) d := by
    ext i hi
    simp only [encR, BitVec.getElem_extractLsb', BitVec.getLsbD_append]
    interval_cases i <;> simp [BitVec.getLsbD_eq_getElem]
  exact congrArg BitVec.toFin h

@[simp] theorem fieldE_encR (op : Nat) (a b c d e n : RegIdx) : fieldE (encR op a b c d e n) = e := by
  have h : (encR op a b c d e n).extractLsb' 4 4 = BitVec.ofFin (w := 4) e := by
    ext i hi
    simp only [encR, BitVec.getElem_extractLsb', BitVec.getLsbD_append]
    interval_cases i <;> simp [BitVec.getLsbD_eq_getElem]
  exact congrArg BitVec.toFin h

@[simp] theorem fieldN_encR (op : Nat) (a b c d e n : RegIdx) : fieldN (encR op a b c d e n) = n := by
  have h : (encR op a b c d e n).extractLsb' 0 4 = BitVec.ofFin (w := 4) n := by
    ext i hi
    simp only [encR, BitVec.getElem_extractLsb', BitVec.getLsbD_append]
    interval_cases i <;> simp [BitVec.getLsbD_eq_getElem]
  exact congrArg BitVec.toFin h

@[simp] theorem fieldN4_encR (op : Nat) (a b c d e n : RegIdx) :
    fieldN4 (encR op a b c d e n) = BitVec.ofFin (w := 4) n :=
  congrArg BitVec.ofFin (fieldN_encR op a b c d e n)

@[simp] theorem fieldOp_encI (op : Nat) (a b : RegIdx) (imm : BitVec 16) : fieldOp (encI op a b imm) = op % 256 := by
  have h : (encI op a b imm).extractLsb' 24 8 = BitVec.ofNat 8 op := by
    ext i hi
    simp only [encI, BitVec.getElem_extractLsb', BitVec.getLsbD_append]
    interval_cases i <;> simp [BitVec.getLsbD_eq_getElem]
  exact congrArg BitVec.toNat h

@[simp] theorem fieldA_encI (op : Nat) (a b : RegIdx) (imm : BitVec 16) : fieldA (encI op a b imm) = a := by
  have h : (encI op a b imm).extractLsb' 20 4 = BitVec.ofFin (w := 4) a := by
    ext i hi
    simp only [encI, BitVec.getElem_extractLsb', BitVec.getLsbD_append]
    interval_cases i <;> simp [BitVec.getLsbD_eq_getElem]
  exact congrArg BitVec.toFin h

@[simp] theorem fieldB_encI (op : Nat) (a b : RegIdx) (imm : BitVec 16) : fieldB (encI op a b imm) = b := by
  have h : (encI op a b imm).extractLsb' 16 4 = BitVec.ofFin (w := 4) b := by
    ext i hi
    simp only [encI, BitVec.getElem_extractLsb', BitVec.getLsbD_append]
    interval_cases i <;> simp [BitVec.getLsbD_eq_getElem]
  exact congrArg BitVec.toFin h

@[simp] theorem fieldImm_encI (op : Nat) (a b : RegIdx) (imm : BitVec 16) :
    fieldImm (encI op a b imm) = imm := by
  simp only [fieldImm]
  ext i hi
  simp only [encI, BitVec.getElem_extractLsb', BitVec.getLsbD_append]
  interval_cases i <;> simp [BitVec.getLsbD_eq_getElem]

theorem fieldOp_lt (w : Word) : fieldOp w < 256 := (w.extractLsb' 24 8).isLt

/-- Every word is the R-format word of its own fields. -/
theorem encR_fields (w : Word) :
    encR (fieldOp w) (fieldA w) (fieldB w) (fieldC w) (fieldD w) (fieldE w) (fieldN w) = w := by
  have h : ∀ x : BitVec 4, BitVec.ofFin (w := 4) (x.toFin : RegIdx) = x := fun _ => rfl
  simp only [encR, fieldOp, fieldA, fieldB, fieldC, fieldD, fieldE, fieldN, h, BitVec.ofNat_toNat,
    BitVec.setWidth_eq]
  ext i hi
  simp only [BitVec.getElem_append, BitVec.getElem_extractLsb']
  interval_cases i <;> simp [BitVec.getLsbD_eq_getElem]

/-- Every word is the I-format word of its own fields. -/
theorem encI_fields (w : Word) : encI (fieldOp w) (fieldA w) (fieldB w) (fieldImm w) = w := by
  have h : ∀ x : BitVec 4, BitVec.ofFin (w := 4) (x.toFin : RegIdx) = x := fun _ => rfl
  simp only [encI, fieldOp, fieldA, fieldB, fieldImm, h, BitVec.ofNat_toNat, BitVec.setWidth_eq]
  ext i hi
  simp only [BitVec.getElem_append, BitVec.getElem_extractLsb']
  interval_cases i <;> simp [BitVec.getLsbD_eq_getElem]

end Sys2Proof
end

