-- ==== Sys2Proof/Laws/Pow.lean ====
section
/-! SUPPORT. Square and multiply equals repeated multiplication, over any associative product with a unit. -/

namespace Sys2Proof.Machine

open Sys2Proof

theorem repMul_one_left {α : Type} (mul : α → α → α) (one : α)
    (assoc : ∀ x y z, mul (mul x y) z = mul x (mul y z)) (one_mul : ∀ x, mul one x = x)
    (mul_one : ∀ x, mul x one = x) (a : α) (n : Nat) :
    mul a (repMul mul one a n) = mul (repMul mul one a n) a := by
  induction n with
  | zero => simp [repMul, one_mul, mul_one]
  | succ n ih => simp only [repMul]; rw [← assoc, ih]

theorem repMul_double {α : Type} (mul : α → α → α) (one : α)
    (assoc : ∀ x y z, mul (mul x y) z = mul x (mul y z)) (a : α) (n : Nat) :
    repMul mul one (mul a a) n = repMul mul one a (2 * n) := by
  induction n with
  | zero => rfl
  | succ n ih =>
    have e : 2 * (n + 1) = 2 * n + 1 + 1 := by ring
    rw [e]
    simp only [repMul]
    rw [ih, assoc]

/-- What the loop of `powBy` computes when its fuel suffices. -/
theorem powLoop_eq {α : Type} (mul : α → α → α) (one : α)
    (assoc : ∀ x y z, mul (mul x y) z = mul x (mul y z)) (one_mul : ∀ x, mul one x = x)
    (mul_one : ∀ x, mul x one = x) (fuel : Nat) (base : α) (n : Nat) (acc : α) (h : n < 2 ^ fuel) :
    powLoop mul fuel base n acc = mul acc (repMul mul one base n) := by
  induction fuel generalizing base n acc with
  | zero =>
    have : n = 0 := by simpa using h
    subst this; simp [powLoop, repMul, mul_one]
  | succ fuel ih =>
    have hn : n / 2 < 2 ^ fuel := by rw [pow_succ] at h; omega
    rw [powLoop, ih _ _ _ hn, repMul_double mul one assoc]
    by_cases h2 : n % 2 = 1
    · have e : n = 2 * (n / 2) + 1 := by omega
      rw [if_pos h2]
      conv_rhs => rw [e]
      rw [repMul, assoc, repMul_one_left mul one assoc one_mul mul_one]
    · have e : n = 2 * (n / 2) := by omega
      rw [if_neg h2]
      conv_rhs => rw [e]

/-- `powBy` is repeated multiplication (spec/00_scope.md R9). -/
theorem powBy_eq_repMul {α : Type} (mul : α → α → α) (one : α)
    (assoc : ∀ x y z, mul (mul x y) z = mul x (mul y z)) (one_mul : ∀ x, mul one x = x)
    (mul_one : ∀ x, mul x one = x) (a : α) (n : Nat) :
    powBy mul one a n = repMul mul one a n := by
  rw [powBy, powLoop_eq mul one assoc one_mul mul_one _ _ _ _ Nat.lt_log2_self, one_mul]

/-- Square and multiply on natural numbers modulo `m`, invariantly. -/
theorem powLoop_mod (m fuel base n acc : Nat) (h : n < 2 ^ fuel) (hacc : acc < m) :
    powLoop (fun x y => x * y % m) fuel base n acc = acc * base ^ n % m := by
  induction fuel generalizing base n acc with
  | zero =>
    have : n = 0 := by simpa using h
    subst this; simp [powLoop, Nat.mod_eq_of_lt hacc]
  | succ fuel ih =>
    have hn : n / 2 < 2 ^ fuel := by rw [pow_succ] at h; omega
    have hm : 0 < m := by omega
    by_cases h2 : n % 2 = 1
    · have e : n = 2 * (n / 2) + 1 := by omega
      rw [powLoop, if_pos h2, ih _ _ _ hn (Nat.mod_lt _ hm)]
      conv_rhs => rw [e]
      rw [pow_succ, pow_mul, Nat.mul_mod, Nat.mod_mod, ← Nat.pow_mod, ← Nat.mul_mod, sq]
      congr 1; ring
    · have e : n = 2 * (n / 2) := by omega
      rw [powLoop, if_neg h2, ih _ _ _ hn hacc]
      conv_rhs => rw [e]
      rw [pow_mul, Nat.mul_mod, ← Nat.pow_mod, ← Nat.mul_mod, sq]

/-- `a^n mod m` by square and multiply. -/
theorem powBy_mod (m a n : Nat) (hm : 1 < m) : powBy (fun x y => x * y % m) 1 a n = a ^ n % m := by
  rw [powBy, powLoop_mod _ _ _ _ _ Nat.lt_log2_self hm, Nat.one_mul]

end Sys2Proof.Machine
end

