-- ==== Sys2Proof/Laws/Prime.lean ====
section
/-! SUPPORT. The modulus of spec/00_scope.md R10 is prime, by a chain of Lucas certificates whose powers the kernel
evaluates. -/

namespace Sys2Proof.Machine

open Sys2Proof

set_option Elab.async false

/-- A number is prime when some `a` has order `p - 1` modulo it, seen on the prime factors of `p - 1`. -/
theorem prime_of_factors (p a : Nat) (fs : List Nat) (hp : 2 < p) (hprod : fs.prod = p - 1)
    (hfs : ∀ f ∈ fs, f.Prime) (h1 : powBy (fun x y => x * y % p) 1 a (p - 1) = 1)
    (h2 : ∀ f ∈ fs, powBy (fun x y => x * y % p) 1 a ((p - 1) / f) ≠ 1) : p.Prime := by
  have cast : ∀ n, ((a : ZMod p) ^ n = 1 ↔ powBy (fun x y => x * y % p) 1 a n = 1) := by
    intro n
    rw [powBy_mod _ _ _ (by omega)]
    have e : ((a : ZMod p) ^ n = 1) ↔ (((a ^ n : Nat) : ZMod p) = ((1 : Nat) : ZMod p)) := by push_cast; rfl
    rw [e, ZMod.natCast_eq_natCast_iff, Nat.ModEq, Nat.mod_eq_of_lt (show 1 < p by omega)]
  refine lucas_primality p (a : ZMod p) ((cast _).2 h1) (fun q hq hd => ?_)
  rw [← hprod] at hd
  obtain ⟨f, hf, hqf⟩ := (Nat.Prime.prime hq).dvd_prod_iff.1 hd
  have : q = f := (Nat.prime_dvd_prime_iff_eq hq (hfs f hf)).1 hqf
  subst this
  exact fun h => h2 q hf ((cast _).1 h)

theorem prime_9272813673901 : Nat.Prime 9272813673901 := by
  refine prime_of_factors _ 2
    [2, 2, 3, 5, 5, 7, 7577, 582767]
    (by decide +kernel) (by decide +kernel) ?_ (by decide +kernel) (by decide +kernel)
  simp only [List.mem_cons, List.not_mem_nil, or_false, forall_eq_or_imp, forall_eq]
  exact ⟨by norm_num, by norm_num, by norm_num, by norm_num, by norm_num, by norm_num, by norm_num, by
    norm_num⟩

theorem prime_1928745244171409 : Nat.Prime 1928745244171409 := by
  refine prime_of_factors _ 3
    [2, 2, 2, 2, 13, 9272813673901]
    (by decide +kernel) (by decide +kernel) ?_ (by decide +kernel) (by decide +kernel)
  simp only [List.mem_cons, List.not_mem_nil, or_false, forall_eq_or_imp, forall_eq]
  exact ⟨by norm_num, by norm_num, by norm_num, by norm_num, by norm_num, prime_9272813673901⟩

theorem prime_7259797099061183477 : Nat.Prime 7259797099061183477 := by
  refine prime_of_factors _ 2
    [2, 2, 941, 1928745244171409]
    (by decide +kernel) (by decide +kernel) ?_ (by decide +kernel) (by decide +kernel)
  simp only [List.mem_cons, List.not_mem_nil, or_false, forall_eq_or_imp, forall_eq]
  exact ⟨by norm_num, by norm_num, by norm_num, prime_1928745244171409⟩

theorem prime_2584487767265781317813 : Nat.Prime 2584487767265781317813 := by
  refine prime_of_factors _ 2
    [2, 2, 89, 7259797099061183477]
    (by decide +kernel) (by decide +kernel) ?_ (by decide +kernel) (by decide +kernel)
  simp only [List.mem_cons, List.not_mem_nil, or_false, forall_eq_or_imp, forall_eq]
  exact ⟨by norm_num, by norm_num, by norm_num, prime_7259797099061183477⟩

theorem prime_13090036741 : Nat.Prime 13090036741 := by
  refine prime_of_factors _ 10
    [2, 2, 3, 5, 11, 47, 421987]
    (by decide +kernel) (by decide +kernel) ?_ (by decide +kernel) (by decide +kernel)
  simp only [List.mem_cons, List.not_mem_nil, or_false, forall_eq_or_imp, forall_eq]
  exact ⟨by norm_num, by norm_num, by norm_num, by norm_num, by norm_num, by norm_num, by norm_num⟩

theorem prime_3819663927398918131021 : Nat.Prime 3819663927398918131021 := by
  refine prime_of_factors _ 6
    [2, 2, 3, 3, 5, 19, 113, 755057, 13090036741]
    (by decide +kernel) (by decide +kernel) ?_ (by decide +kernel) (by decide +kernel)
  simp only [List.mem_cons, List.not_mem_nil, or_false, forall_eq_or_imp, forall_eq]
  exact ⟨by norm_num, by norm_num, by norm_num, by norm_num, by norm_num, by norm_num, by norm_num, by
    norm_num, prime_13090036741⟩

theorem prime_51376543 : Nat.Prime 51376543 := by
  refine prime_of_factors _ 3
    [2, 3, 7, 151, 8101]
    (by decide +kernel) (by decide +kernel) ?_ (by decide +kernel) (by decide +kernel)
  simp only [List.mem_cons, List.not_mem_nil, or_false, forall_eq_or_imp, forall_eq]
  exact ⟨by norm_num, by norm_num, by norm_num, by norm_num, by norm_num⟩

theorem prime_43670061551 : Nat.Prime 43670061551 := by
  refine prime_of_factors _ 7
    [2, 5, 5, 17, 51376543]
    (by decide +kernel) (by decide +kernel) ?_ (by decide +kernel) (by decide +kernel)
  simp only [List.mem_cons, List.not_mem_nil, or_false, forall_eq_or_imp, forall_eq]
  exact ⟨by norm_num, by norm_num, by norm_num, by norm_num, prime_51376543⟩

theorem prime_112526625215 : Nat.Prime 1125266252156850182658904441386709967 := by
  refine prime_of_factors _ 5
    [2, 3373, 43670061551, 3819663927398918131021]
    (by decide +kernel) (by decide +kernel) ?_ (by decide +kernel) (by decide +kernel)
  simp only [List.mem_cons, List.not_mem_nil, or_false, forall_eq_or_imp, forall_eq]
  exact ⟨by norm_num, by norm_num, prime_43670061551, prime_3819663927398918131021⟩

theorem prime_927093389 : Nat.Prime 927093389 := by
  refine prime_of_factors _ 3
    [2, 2, 13, 409, 43591]
    (by decide +kernel) (by decide +kernel) ?_ (by decide +kernel) (by decide +kernel)
  simp only [List.mem_cons, List.not_mem_nil, or_false, forall_eq_or_imp, forall_eq]
  exact ⟨by norm_num, by norm_num, by norm_num, by norm_num, by norm_num⟩

theorem prime_64881703735777 : Nat.Prime 64881703735777 := by
  refine prime_of_factors _ 5
    [2, 2, 2, 2, 2, 3, 3, 3, 3, 3, 3, 3, 927093389]
    (by decide +kernel) (by decide +kernel) ?_ (by decide +kernel) (by decide +kernel)
  simp only [List.mem_cons, List.not_mem_nil, or_false, forall_eq_or_imp, forall_eq]
  exact ⟨by norm_num, by norm_num, by norm_num, by norm_num, by norm_num, by norm_num, by norm_num, by
    norm_num, by norm_num, by norm_num, by norm_num, by norm_num, prime_927093389⟩

theorem prime_92691255082156974996979 : Nat.Prime 92691255082156974996979 := by
  refine prime_of_factors _ 3
    [2, 3, 31, 467, 16447, 64881703735777]
    (by decide +kernel) (by decide +kernel) ?_ (by decide +kernel) (by decide +kernel)
  simp only [List.mem_cons, List.not_mem_nil, or_false, forall_eq_or_imp, forall_eq]
  exact ⟨by norm_num, by norm_num, by norm_num, by norm_num, by norm_num, prime_64881703735777⟩

theorem prime_475709467 : Nat.Prime 475709467 := by
  refine prime_of_factors _ 2
    [2, 3, 47, 1686913]
    (by decide +kernel) (by decide +kernel) ?_ (by decide +kernel) (by decide +kernel)
  simp only [List.mem_cons, List.not_mem_nil, or_false, forall_eq_or_imp, forall_eq]
  exact ⟨by norm_num, by norm_num, by norm_num, by norm_num⟩

theorem prime_157784003443 : Nat.Prime 15778400344354997994418419698270088123916926905054652752758194827714659 := by
  refine prime_of_factors _ 2
    [2, 3, 53, 475709467, 92691255082156974996979, 1125266252156850182658904441386709967]
    (by decide +kernel) (by decide +kernel) ?_ (by decide +kernel) (by decide +kernel)
  simp only [List.mem_cons, List.not_mem_nil, or_false, forall_eq_or_imp, forall_eq]
  exact ⟨by norm_num, by norm_num, by norm_num, prime_475709467, prime_92691255082156974996979,
    prime_112526625215⟩

theorem fieldP_prime : Nat.Prime fieldP := by
  refine prime_of_factors _ 2
    [2, 3, 3, 11, 23, 47, 10177, 859267, 52437899, 2584487767265781317813,
      15778400344354997994418419698270088123916926905054652752758194827714659]
    (by decide +kernel) (by decide +kernel) ?_ (by decide +kernel) (by decide +kernel)
  simp only [List.mem_cons, List.not_mem_nil, or_false, forall_eq_or_imp, forall_eq]
  exact ⟨by norm_num, by norm_num, by norm_num, by norm_num, by norm_num, by norm_num, by norm_num, by
    norm_num, by norm_num, prime_2584487767265781317813, prime_157784003443⟩

end Sys2Proof.Machine
end

