-- ==== Sys2Proof/Laws/Field.lean ====
section
/-! SUPPORT. The four levels of the tower as commutative rings (Fp inside `ZMod fieldP`), so that `ring` closes goals about the functions of
the `*Arith` files: `letI := ringFp2` and the like, then `change` to `+` and `*`. -/

namespace Sys2Proof.Machine

open Sys2Proof

/-- An element of Fp in the integers modulo `p`. -/
def toZ (a : Fp) : ZMod fieldP := (a.val : ZMod fieldP)

@[simp] theorem toZ_toFp (n : Nat) : toZ (toFp n) = (n : ZMod fieldP) := by
  simp only [toZ, toFp]
  exact ZMod.natCast_mod n fieldP

theorem toZ_inj {a b : Fp} (h : toZ a = toZ b) : a = b := by
  simp only [toZ, ZMod.natCast_eq_natCast_iff, Nat.ModEq, Nat.mod_eq_of_lt a.isLt, Nat.mod_eq_of_lt b.isLt] at h
  exact Fin.ext h

@[simp] theorem toZ_fadd (a b : Fp) : toZ (fadd a b) = toZ a + toZ b := by
  rw [fadd, toZ_toFp, Nat.cast_add]; rfl

@[simp] theorem toZ_fmul (a b : Fp) : toZ (fmul a b) = toZ a * toZ b := by
  rw [fmul, toZ_toFp, Nat.cast_mul]; rfl

@[simp] theorem toZ_fneg (a : Fp) : toZ (fneg a) = - toZ a := by
  rw [fneg, toZ_toFp, Nat.cast_sub (Nat.le_of_lt a.isLt), ZMod.natCast_self, zero_sub]; rfl

@[simp] theorem toZ_fsub (a b : Fp) : toZ (fsub a b) = toZ a - toZ b := by
  rw [fsub, toZ_toFp, Nat.cast_add, Nat.cast_sub (Nat.le_of_lt b.isLt), ZMod.natCast_self, zero_sub,
    ← sub_eq_add_neg]; rfl

@[simp] theorem toZ_fsqr (a : Fp) : toZ (fsqr a) = toZ a * toZ a := toZ_fmul a a

theorem toZ_eq_zero {a : Fp} : toZ a = 0 ↔ a.val = 0 := by
  constructor
  · intro h
    have : a = toFp 0 := toZ_inj (by rw [h, toZ_toFp, Nat.cast_zero])
    rw [this]; rfl
  · intro h; simp [toZ, h]

/-! Powers and squares of Fp. -/

@[simp] theorem toZ_fpow (a : Fp) (n : Nat) : toZ (fpow a n) = toZ a ^ n := by
  have h1 : ∀ x, fmul (toFp 1) x = x := fun x => toZ_inj (by simp)
  have h2 : ∀ x, fmul x (toFp 1) = x := fun x => toZ_inj (by simp)
  rw [fpow, powBy_eq_repMul fmul (toFp 1) (fun x y z => toZ_inj (by simp [mul_assoc])) h1 h2]
  induction n with
  | zero => simp [repMul]
  | succ n ih => rw [repMul, toZ_fmul, ih, pow_succ]

/-- Euler's criterion, in the direction that refuses a root. -/
theorem no_root_of_fpow (v : Fp) (h : fpow v ((fieldP - 1) / 2) = toFp (fieldP - 1)) :
    ¬∃ y : Fp, y.val * y.val % fieldP = v.val := by
  rintro ⟨y, hy⟩
  have : Fact (Nat.Prime fieldP) := ⟨fieldP_prime⟩
  have hv : toZ v = toZ y * toZ y := by
    rw [← toZ_fmul]
    exact congrArg toZ (Fin.ext hy.symm)
  have hp : toZ (toFp (fieldP - 1)) = toZ y ^ (fieldP - 1) := by
    rw [← h, toZ_fpow, hv, ← pow_two, ← pow_mul]
    congr 1
  by_cases h0 : toZ y = 0
  · rw [h0, zero_pow (by decide +kernel)] at hp
    have : toFp (fieldP - 1) = toFp 0 := toZ_inj (by rw [hp]; simp)
    exact absurd this (by decide +kernel)
  · rw [ZMod.pow_card_sub_one_eq_one h0] at hp
    have : toFp (fieldP - 1) = toFp 1 := toZ_inj (by rw [hp]; simp)
    exact absurd this (by decide +kernel)

theorem fp2_ext {a b : Fp2} (h0 : a.c0 = b.c0) (h1 : a.c1 = b.c1) : a = b := by
  cases a; cases b; simp_all

/-- Two elements of Fp2 are equal when their coefficients are, in `ZMod fieldP`. -/
theorem fp2_toZ_ext {a b : Fp2} (h0 : toZ a.c0 = toZ b.c0) (h1 : toZ a.c1 = toZ b.c1) : a = b :=
  fp2_ext (toZ_inj h0) (toZ_inj h1)

@[simp] theorem qAdd_c0 (a b : Fp2) : (qAdd a b).c0 = fadd a.c0 b.c0 := rfl
@[simp] theorem qAdd_c1 (a b : Fp2) : (qAdd a b).c1 = fadd a.c1 b.c1 := rfl
@[simp] theorem qSub_c0 (a b : Fp2) : (qSub a b).c0 = fsub a.c0 b.c0 := rfl
@[simp] theorem qSub_c1 (a b : Fp2) : (qSub a b).c1 = fsub a.c1 b.c1 := rfl
@[simp] theorem qNeg_c0 (a : Fp2) : (qNeg a).c0 = fneg a.c0 := rfl
@[simp] theorem qNeg_c1 (a : Fp2) : (qNeg a).c1 = fneg a.c1 := rfl
@[simp] theorem qMul_c0 (a b : Fp2) : (qMul a b).c0 = fsub (fmul a.c0 b.c0) (fmul a.c1 b.c1) := rfl
@[simp] theorem qMul_c1 (a b : Fp2) : (qMul a b).c1 = fadd (fmul a.c0 b.c1) (fmul a.c1 b.c0) := rfl
@[simp] theorem qMulnr_c0 (a : Fp2) : (qMulnr a).c0 = fsub a.c0 a.c1 := rfl
@[simp] theorem qMulnr_c1 (a : Fp2) : (qMulnr a).c1 = fadd a.c0 a.c1 := rfl
@[simp] theorem qMulf_c0 (a : Fp2) (c : Fp) : (qMulf a c).c0 = fmul a.c0 c := rfl
@[simp] theorem qMulf_c1 (a : Fp2) (c : Fp) : (qMulf a c).c1 = fmul a.c1 c := rfl
@[simp] theorem qConj_c0 (a : Fp2) : (qConj a).c0 = a.c0 := rfl
@[simp] theorem qConj_c1 (a : Fp2) : (qConj a).c1 = fneg a.c1 := rfl
@[simp] theorem zero2_c0 : zero2.c0 = toFp 0 := rfl
@[simp] theorem zero2_c1 : zero2.c1 = toFp 0 := rfl
@[simp] theorem one2_c0 : one2.c0 = toFp 1 := rfl
@[simp] theorem one2_c1 : one2.c1 = toFp 0 := rfl
@[simp] theorem mkFp2_c0 (m n : Nat) : (mkFp2 m n).c0 = toFp m := rfl
@[simp] theorem mkFp2_c1 (m n : Nat) : (mkFp2 m n).c1 = toFp n := rfl

theorem qRing_add_assoc (a b c : Fp2) : qAdd (qAdd a b) c = qAdd a (qAdd b c) := by
  refine fp2_toZ_ext ?_ ?_ <;> simp <;> ring

theorem qRing_zero_add (a : Fp2) : qAdd zero2 a = a := by
  refine fp2_toZ_ext ?_ ?_ <;> simp

theorem qRing_add_zero (a : Fp2) : qAdd a zero2 = a := by
  refine fp2_toZ_ext ?_ ?_ <;> simp

theorem qRing_add_comm (a b : Fp2) : qAdd a b = qAdd b a := by
  refine fp2_toZ_ext ?_ ?_ <;> simp <;> ring

theorem qRing_neg_add_cancel (a : Fp2) : qAdd (qNeg a) a = zero2 := by
  refine fp2_toZ_ext ?_ ?_ <;> simp

theorem qRing_sub_eq_add_neg (a b : Fp2) : qSub a b = qAdd a (qNeg b) := by
  refine fp2_toZ_ext ?_ ?_ <;> simp <;> ring

theorem qRing_left_distrib (a b c : Fp2) : qMul a (qAdd b c) = qAdd (qMul a b) (qMul a c) := by
  refine fp2_toZ_ext ?_ ?_ <;> simp <;> ring

theorem qRing_right_distrib (a b c : Fp2) : qMul (qAdd a b) c = qAdd (qMul a c) (qMul b c) := by
  refine fp2_toZ_ext ?_ ?_ <;> simp <;> ring

theorem qRing_zero_mul (a : Fp2) : qMul zero2 a = zero2 := by
  refine fp2_toZ_ext ?_ ?_ <;> simp

theorem qRing_mul_zero (a : Fp2) : qMul a zero2 = zero2 := by
  refine fp2_toZ_ext ?_ ?_ <;> simp

theorem qRing_mul_assoc (a b c : Fp2) : qMul (qMul a b) c = qMul a (qMul b c) := by
  refine fp2_toZ_ext ?_ ?_ <;> simp <;> ring

theorem qRing_one_mul (a : Fp2) : qMul one2 a = a := by
  refine fp2_toZ_ext ?_ ?_ <;> simp

theorem qRing_mul_one (a : Fp2) : qMul a one2 = a := by
  refine fp2_toZ_ext ?_ ?_ <;> simp

theorem qRing_mul_comm (a b : Fp2) : qMul a b = qMul b a := by
  refine fp2_toZ_ext ?_ ?_ <;> simp <;> ring

/-- Fp2 is a commutative ring under the functions of spec/42_fp2.md R211. -/
@[reducible] def ringFp2 : CommRing Fp2 where
  add := qAdd
  zero := zero2
  neg := qNeg
  sub := qSub
  mul := qMul
  one := one2
  nsmul := @nsmulRec _ ⟨zero2⟩ ⟨qAdd⟩
  zsmul := @zsmulRec _ ⟨zero2⟩ ⟨qAdd⟩ ⟨qNeg⟩ (@nsmulRec _ ⟨zero2⟩ ⟨qAdd⟩)
  add_assoc := qRing_add_assoc
  zero_add := qRing_zero_add
  add_zero := qRing_add_zero
  add_comm := qRing_add_comm
  neg_add_cancel := qRing_neg_add_cancel
  sub_eq_add_neg := qRing_sub_eq_add_neg
  left_distrib := qRing_left_distrib
  right_distrib := qRing_right_distrib
  zero_mul := qRing_zero_mul
  mul_zero := qRing_mul_zero
  mul_assoc := qRing_mul_assoc
  one_mul := qRing_one_mul
  mul_one := qRing_mul_one
  mul_comm := qRing_mul_comm

/-- `ξ = 1 + u`, the nonresidue of Fp2 (spec/00_scope.md R9). -/
def xi : Fp2 := mkFp2 1 1

/-- `q_mulnr` is multiplication by `ξ` (spec/42_fp2.md R211). -/
theorem qMulnr_eq (a : Fp2) : qMulnr a = qMul xi a := by
  refine fp2_toZ_ext ?_ ?_ <;> simp [xi]
  ring

/-- The norm of a square of Fp2 is a square of Fp; so a value whose norm is none has no root. -/
theorem no_root2_of_fpow (v : Fp2)
    (h : fpow (fadd (fmul v.c0 v.c0) (fmul v.c1 v.c1)) ((fieldP - 1) / 2) = toFp (fieldP - 1)) :
    ¬∃ y : Fp2, qMul y y = v := by
  rintro ⟨y, rfl⟩
  refine no_root_of_fpow _ h ⟨fadd (fmul y.c0 y.c0) (fmul y.c1 y.c1), ?_⟩
  have e : fmul (fadd (fmul y.c0 y.c0) (fmul y.c1 y.c1)) (fadd (fmul y.c0 y.c0) (fmul y.c1 y.c1)) =
      fadd (fmul (qMul y y).c0 (qMul y y).c0) (fmul (qMul y y).c1 (qMul y y).c1) :=
    toZ_inj (by simp; ring)
  exact congrArg Fin.val e

theorem fp6_ext {a b : Fp6} (h0 : a.c0 = b.c0) (h1 : a.c1 = b.c1) (h2 : a.c2 = b.c2) : a = b := by
  cases a; cases b; simp_all

/-- `s_mul` with `ξ` written as a factor (spec/43_fp6.md R242). -/
theorem sMul_eq (a b : Fp6) :
    letI := ringFp2
    sMul a b = ⟨a.c0 * b.c0 + xi * (a.c1 * b.c2 + a.c2 * b.c1), a.c0 * b.c1 + a.c1 * b.c0 + xi * (a.c2 * b.c2),
      a.c0 * b.c2 + a.c1 * b.c1 + a.c2 * b.c0⟩ := by
  simp only [sMul, qMulnr_eq]; rfl

/-- Fp6 is a commutative ring under the functions of spec/43_fp6.md R241, R242. -/
@[reducible] def ringFp6 : CommRing Fp6 :=
  letI := ringFp2
  { add := sAdd
    zero := zero6
    neg := sNeg
    sub := sSub
    mul := sMul
    one := one6
    nsmul := @nsmulRec _ ⟨zero6⟩ ⟨sAdd⟩
    zsmul := @zsmulRec _ ⟨zero6⟩ ⟨sAdd⟩ ⟨sNeg⟩ (@nsmulRec _ ⟨zero6⟩ ⟨sAdd⟩)
    add_assoc := fun a b c =>
      fp6_ext (add_assoc a.c0 b.c0 c.c0) (add_assoc a.c1 b.c1 c.c1) (add_assoc a.c2 b.c2 c.c2)
    zero_add := fun a => fp6_ext (zero_add a.c0) (zero_add a.c1) (zero_add a.c2)
    add_zero := fun a => fp6_ext (add_zero a.c0) (add_zero a.c1) (add_zero a.c2)
    add_comm := fun a b => fp6_ext (add_comm a.c0 b.c0) (add_comm a.c1 b.c1) (add_comm a.c2 b.c2)
    neg_add_cancel := fun a => fp6_ext (neg_add_cancel a.c0) (neg_add_cancel a.c1) (neg_add_cancel a.c2)
    sub_eq_add_neg := fun a b =>
      fp6_ext (sub_eq_add_neg a.c0 b.c0) (sub_eq_add_neg a.c1 b.c1) (sub_eq_add_neg a.c2 b.c2)
    left_distrib := fun a b c => by
      change sMul a (sAdd b c) = sAdd (sMul a b) (sMul a c)
      simp only [sMul_eq]
      refine fp6_ext ?_ ?_ ?_
      · change a.c0 * (b.c0 + c.c0) + xi * (a.c1 * (b.c2 + c.c2) + a.c2 * (b.c1 + c.c1)) =
          (a.c0 * b.c0 + xi * (a.c1 * b.c2 + a.c2 * b.c1)) + (a.c0 * c.c0 + xi * (a.c1 * c.c2 + a.c2 * c.c1))
        ring
      · change a.c0 * (b.c1 + c.c1) + a.c1 * (b.c0 + c.c0) + xi * (a.c2 * (b.c2 + c.c2)) =
          (a.c0 * b.c1 + a.c1 * b.c0 + xi * (a.c2 * b.c2)) + (a.c0 * c.c1 + a.c1 * c.c0 + xi * (a.c2 * c.c2))
        ring
      · change a.c0 * (b.c2 + c.c2) + a.c1 * (b.c1 + c.c1) + a.c2 * (b.c0 + c.c0) =
          (a.c0 * b.c2 + a.c1 * b.c1 + a.c2 * b.c0) + (a.c0 * c.c2 + a.c1 * c.c1 + a.c2 * c.c0)
        ring
    right_distrib := fun a b c => by
      change sMul (sAdd a b) c = sAdd (sMul a c) (sMul b c)
      simp only [sMul_eq]
      refine fp6_ext ?_ ?_ ?_
      · change (a.c0 + b.c0) * c.c0 + xi * ((a.c1 + b.c1) * c.c2 + (a.c2 + b.c2) * c.c1) =
          (a.c0 * c.c0 + xi * (a.c1 * c.c2 + a.c2 * c.c1)) + (b.c0 * c.c0 + xi * (b.c1 * c.c2 + b.c2 * c.c1))
        ring
      · change (a.c0 + b.c0) * c.c1 + (a.c1 + b.c1) * c.c0 + xi * ((a.c2 + b.c2) * c.c2) =
          (a.c0 * c.c1 + a.c1 * c.c0 + xi * (a.c2 * c.c2)) + (b.c0 * c.c1 + b.c1 * c.c0 + xi * (b.c2 * c.c2))
        ring
      · change (a.c0 + b.c0) * c.c2 + (a.c1 + b.c1) * c.c1 + (a.c2 + b.c2) * c.c0 =
          (a.c0 * c.c2 + a.c1 * c.c1 + a.c2 * c.c0) + (b.c0 * c.c2 + b.c1 * c.c1 + b.c2 * c.c0)
        ring
    zero_mul := fun a => by
      change sMul zero6 a = zero6
      rw [sMul_eq]
      refine fp6_ext ?_ ?_ ?_
      · change 0 * a.c0 + xi * (0 * a.c2 + 0 * a.c1) = 0; ring
      · change 0 * a.c1 + 0 * a.c0 + xi * (0 * a.c2) = 0; ring
      · change 0 * a.c2 + 0 * a.c1 + 0 * a.c0 = 0; ring
    mul_zero := fun a => by
      change sMul a zero6 = zero6
      rw [sMul_eq]
      refine fp6_ext ?_ ?_ ?_
      · change a.c0 * 0 + xi * (a.c1 * 0 + a.c2 * 0) = 0; ring
      · change a.c0 * 0 + a.c1 * 0 + xi * (a.c2 * 0) = 0; ring
      · change a.c0 * 0 + a.c1 * 0 + a.c2 * 0 = 0; ring
    mul_assoc := fun a b c => by
      change sMul (sMul a b) c = sMul a (sMul b c)
      simp only [sMul_eq]
      refine fp6_ext ?_ ?_ ?_ <;> dsimp only <;> ring
    one_mul := fun a => by
      change sMul one6 a = a
      rw [sMul_eq]
      refine fp6_ext ?_ ?_ ?_
      · change 1 * a.c0 + xi * (0 * a.c2 + 0 * a.c1) = a.c0; ring
      · change 1 * a.c1 + 0 * a.c0 + xi * (0 * a.c2) = a.c1; ring
      · change 1 * a.c2 + 0 * a.c1 + 0 * a.c0 = a.c2; ring
    mul_one := fun a => by
      change sMul a one6 = a
      rw [sMul_eq]
      refine fp6_ext ?_ ?_ ?_
      · change a.c0 * 1 + xi * (a.c1 * 0 + a.c2 * 0) = a.c0; ring
      · change a.c0 * 0 + a.c1 * 1 + xi * (a.c2 * 0) = a.c1; ring
      · change a.c0 * 0 + a.c1 * 0 + a.c2 * 1 = a.c2; ring
    mul_comm := fun a b => by
      change sMul a b = sMul b a
      simp only [sMul_eq]
      refine fp6_ext ?_ ?_ ?_ <;> dsimp only <;> ring }

/-- The element `v` of Fp6 (spec/43_fp6.md R240). -/
def elemV : Fp6 := ⟨zero2, one2, zero2⟩

/-- `s_mulnr` is multiplication by `v` (spec/43_fp6.md R241). -/
theorem sMulnr_eq (a : Fp6) : sMulnr a = sMul elemV a := by
  let := ringFp2
  rw [sMul_eq, sMulnr, qMulnr_eq]
  refine fp6_ext ?_ ?_ ?_
  · change xi * a.c2 = 0 * a.c0 + xi * (1 * a.c2 + 0 * a.c1); ring
  · change a.c0 = 0 * a.c1 + 1 * a.c0 + xi * (0 * a.c2); ring
  · change a.c1 = 0 * a.c2 + 1 * a.c1 + 0 * a.c0; ring

theorem fp12_ext {a b : Fp12} (h0 : a.c0 = b.c0) (h1 : a.c1 = b.c1) : a = b := by
  cases a; cases b; simp_all

/-- `t_mul` with `v` written as a factor (spec/44_fp12.md R271). -/
theorem tMul_eq (a b : Fp12) :
    letI := ringFp6
    tMul a b = ⟨a.c0 * b.c0 + elemV * (a.c1 * b.c1), a.c0 * b.c1 + a.c1 * b.c0⟩ := by
  simp only [tMul, sMulnr_eq]; rfl

/-- Fp12 is a commutative ring under the functions of spec/44_fp12.md R271. -/
@[reducible] def ringFp12 : CommRing Fp12 :=
  letI := ringFp6
  { add := tAdd
    zero := zero12
    neg := tNeg
    sub := tSub
    mul := tMul
    one := one12
    nsmul := @nsmulRec _ ⟨zero12⟩ ⟨tAdd⟩
    zsmul := @zsmulRec _ ⟨zero12⟩ ⟨tAdd⟩ ⟨tNeg⟩ (@nsmulRec _ ⟨zero12⟩ ⟨tAdd⟩)
    add_assoc := fun a b c => fp12_ext (add_assoc a.c0 b.c0 c.c0) (add_assoc a.c1 b.c1 c.c1)
    zero_add := fun a => fp12_ext (zero_add a.c0) (zero_add a.c1)
    add_zero := fun a => fp12_ext (add_zero a.c0) (add_zero a.c1)
    add_comm := fun a b => fp12_ext (add_comm a.c0 b.c0) (add_comm a.c1 b.c1)
    neg_add_cancel := fun a => fp12_ext (neg_add_cancel a.c0) (neg_add_cancel a.c1)
    sub_eq_add_neg := fun a b => fp12_ext (sub_eq_add_neg a.c0 b.c0) (sub_eq_add_neg a.c1 b.c1)
    left_distrib := fun a b c => by
      change tMul a (tAdd b c) = tAdd (tMul a b) (tMul a c)
      simp only [tMul_eq]
      refine fp12_ext ?_ ?_
      · change a.c0 * (b.c0 + c.c0) + elemV * (a.c1 * (b.c1 + c.c1)) =
          (a.c0 * b.c0 + elemV * (a.c1 * b.c1)) + (a.c0 * c.c0 + elemV * (a.c1 * c.c1)); ring
      · change a.c0 * (b.c1 + c.c1) + a.c1 * (b.c0 + c.c0) =
          (a.c0 * b.c1 + a.c1 * b.c0) + (a.c0 * c.c1 + a.c1 * c.c0); ring
    right_distrib := fun a b c => by
      change tMul (tAdd a b) c = tAdd (tMul a c) (tMul b c)
      simp only [tMul_eq]
      refine fp12_ext ?_ ?_
      · change (a.c0 + b.c0) * c.c0 + elemV * ((a.c1 + b.c1) * c.c1) =
          (a.c0 * c.c0 + elemV * (a.c1 * c.c1)) + (b.c0 * c.c0 + elemV * (b.c1 * c.c1)); ring
      · change (a.c0 + b.c0) * c.c1 + (a.c1 + b.c1) * c.c0 =
          (a.c0 * c.c1 + a.c1 * c.c0) + (b.c0 * c.c1 + b.c1 * c.c0); ring
    zero_mul := fun a => by
      change tMul zero12 a = zero12
      rw [tMul_eq]
      refine fp12_ext ?_ ?_
      · change 0 * a.c0 + elemV * (0 * a.c1) = 0; ring
      · change 0 * a.c1 + 0 * a.c0 = 0; ring
    mul_zero := fun a => by
      change tMul a zero12 = zero12
      rw [tMul_eq]
      refine fp12_ext ?_ ?_
      · change a.c0 * 0 + elemV * (a.c1 * 0) = 0; ring
      · change a.c0 * 0 + a.c1 * 0 = 0; ring
    mul_assoc := fun a b c => by
      change tMul (tMul a b) c = tMul a (tMul b c)
      simp only [tMul_eq]
      refine fp12_ext ?_ ?_ <;> dsimp only <;> ring
    one_mul := fun a => by
      change tMul one12 a = a
      rw [tMul_eq]
      refine fp12_ext ?_ ?_
      · change 1 * a.c0 + elemV * (0 * a.c1) = a.c0; ring
      · change 1 * a.c1 + 0 * a.c0 = a.c1; ring
    mul_one := fun a => by
      change tMul a one12 = a
      rw [tMul_eq]
      refine fp12_ext ?_ ?_
      · change a.c0 * 1 + elemV * (a.c1 * 0) = a.c0; ring
      · change a.c0 * 0 + a.c1 * 1 = a.c1; ring
    mul_comm := fun a b => by
      change tMul a b = tMul b a
      simp only [tMul_eq]
      refine fp12_ext ?_ ?_ <;> dsimp only <;> ring }

end Sys2Proof.Machine
end

