-- ==== Sys2Proof/Laws/State.lean ====
section
/-! SUPPORT. Every field of the state after every update of Machine/Ops.lean and Machine/HostWindow.lean, so that no
proof unfolds a record update. -/

namespace Sys2Proof.Machine

open Sys2Proof

@[simp] theorem writeF_f (u : State) (i : RegIdx) (v : Fp) : (writeF u i v).f = u.f.set i v := rfl
@[simp] theorem writeF_r (u : State) (i : RegIdx) (v : Fp) : (writeF u i v).r = u.r := rfl
@[simp] theorem writeF_pc (u : State) (i : RegIdx) (v : Fp) : (writeF u i v).pc = u.pc := rfl
@[simp] theorem writeF_q (u : State) (i : RegIdx) (v : Fp) : (writeF u i v).q = u.q := rfl
@[simp] theorem writeF_s (u : State) (i : RegIdx) (v : Fp) : (writeF u i v).s = u.s := rfl
@[simp] theorem writeF_t (u : State) (i : RegIdx) (v : Fp) : (writeF u i v).t = u.t := rfl
@[simp] theorem writeF_g (u : State) (i : RegIdx) (v : Fp) : (writeF u i v).g = u.g := rfl
@[simp] theorem writeF_h (u : State) (i : RegIdx) (v : Fp) : (writeF u i v).h = u.h := rfl
@[simp] theorem writeF_k (u : State) (i : RegIdx) (v : Fp) : (writeF u i v).k = u.k := rfl
@[simp] theorem writeF_dstBuf (u : State) (i : RegIdx) (v : Fp) : (writeF u i v).dstBuf = u.dstBuf := rfl
@[simp] theorem writeF_status (u : State) (i : RegIdx) (v : Fp) : (writeF u i v).status = u.status := rfl
@[simp] theorem writeF_startPc (u : State) (i : RegIdx) (v : Fp) : (writeF u i v).startPc = u.startPc := rfl
@[simp] theorem writeF_ecause (u : State) (i : RegIdx) (v : Fp) : (writeF u i v).ecause = u.ecause := rfl
@[simp] theorem writeF_epc (u : State) (i : RegIdx) (v : Fp) : (writeF u i v).epc = u.epc := rfl
@[simp] theorem writeF_einfo (u : State) (i : RegIdx) (v : Fp) : (writeF u i v).einfo = u.einfo := rfl
@[simp] theorem writeF_intrEnable (u : State) (i : RegIdx) (v : Fp) : (writeF u i v).intrEnable = u.intrEnable := rfl
@[simp] theorem writeF_intrState (u : State) (i : RegIdx) (v : Fp) : (writeF u i v).intrState = u.intrState := rfl
@[simp] theorem writeF_imem (u : State) (i : RegIdx) (v : Fp) : (writeF u i v).imem = u.imem := rfl
@[simp] theorem writeF_dmem (u : State) (i : RegIdx) (v : Fp) : (writeF u i v).dmem = u.dmem := rfl

@[simp] theorem writeQ_q (u : State) (i : RegIdx) (v : Fp2) : (writeQ u i v).q = u.q.set i v := rfl
@[simp] theorem writeQ_r (u : State) (i : RegIdx) (v : Fp2) : (writeQ u i v).r = u.r := rfl
@[simp] theorem writeQ_pc (u : State) (i : RegIdx) (v : Fp2) : (writeQ u i v).pc = u.pc := rfl
@[simp] theorem writeQ_f (u : State) (i : RegIdx) (v : Fp2) : (writeQ u i v).f = u.f := rfl
@[simp] theorem writeQ_s (u : State) (i : RegIdx) (v : Fp2) : (writeQ u i v).s = u.s := rfl
@[simp] theorem writeQ_t (u : State) (i : RegIdx) (v : Fp2) : (writeQ u i v).t = u.t := rfl
@[simp] theorem writeQ_g (u : State) (i : RegIdx) (v : Fp2) : (writeQ u i v).g = u.g := rfl
@[simp] theorem writeQ_h (u : State) (i : RegIdx) (v : Fp2) : (writeQ u i v).h = u.h := rfl
@[simp] theorem writeQ_k (u : State) (i : RegIdx) (v : Fp2) : (writeQ u i v).k = u.k := rfl
@[simp] theorem writeQ_dstBuf (u : State) (i : RegIdx) (v : Fp2) : (writeQ u i v).dstBuf = u.dstBuf := rfl
@[simp] theorem writeQ_status (u : State) (i : RegIdx) (v : Fp2) : (writeQ u i v).status = u.status := rfl
@[simp] theorem writeQ_startPc (u : State) (i : RegIdx) (v : Fp2) : (writeQ u i v).startPc = u.startPc := rfl
@[simp] theorem writeQ_ecause (u : State) (i : RegIdx) (v : Fp2) : (writeQ u i v).ecause = u.ecause := rfl
@[simp] theorem writeQ_epc (u : State) (i : RegIdx) (v : Fp2) : (writeQ u i v).epc = u.epc := rfl
@[simp] theorem writeQ_einfo (u : State) (i : RegIdx) (v : Fp2) : (writeQ u i v).einfo = u.einfo := rfl
@[simp] theorem writeQ_intrEnable (u : State) (i : RegIdx) (v : Fp2) : (writeQ u i v).intrEnable = u.intrEnable := rfl
@[simp] theorem writeQ_intrState (u : State) (i : RegIdx) (v : Fp2) : (writeQ u i v).intrState = u.intrState := rfl
@[simp] theorem writeQ_imem (u : State) (i : RegIdx) (v : Fp2) : (writeQ u i v).imem = u.imem := rfl
@[simp] theorem writeQ_dmem (u : State) (i : RegIdx) (v : Fp2) : (writeQ u i v).dmem = u.dmem := rfl

@[simp] theorem writeS_s (u : State) (i : RegIdx) (v : Fp6) : (writeS u i v).s = u.s.set i v := rfl
@[simp] theorem writeS_r (u : State) (i : RegIdx) (v : Fp6) : (writeS u i v).r = u.r := rfl
@[simp] theorem writeS_pc (u : State) (i : RegIdx) (v : Fp6) : (writeS u i v).pc = u.pc := rfl
@[simp] theorem writeS_f (u : State) (i : RegIdx) (v : Fp6) : (writeS u i v).f = u.f := rfl
@[simp] theorem writeS_q (u : State) (i : RegIdx) (v : Fp6) : (writeS u i v).q = u.q := rfl
@[simp] theorem writeS_t (u : State) (i : RegIdx) (v : Fp6) : (writeS u i v).t = u.t := rfl
@[simp] theorem writeS_g (u : State) (i : RegIdx) (v : Fp6) : (writeS u i v).g = u.g := rfl
@[simp] theorem writeS_h (u : State) (i : RegIdx) (v : Fp6) : (writeS u i v).h = u.h := rfl
@[simp] theorem writeS_k (u : State) (i : RegIdx) (v : Fp6) : (writeS u i v).k = u.k := rfl
@[simp] theorem writeS_dstBuf (u : State) (i : RegIdx) (v : Fp6) : (writeS u i v).dstBuf = u.dstBuf := rfl
@[simp] theorem writeS_status (u : State) (i : RegIdx) (v : Fp6) : (writeS u i v).status = u.status := rfl
@[simp] theorem writeS_startPc (u : State) (i : RegIdx) (v : Fp6) : (writeS u i v).startPc = u.startPc := rfl
@[simp] theorem writeS_ecause (u : State) (i : RegIdx) (v : Fp6) : (writeS u i v).ecause = u.ecause := rfl
@[simp] theorem writeS_epc (u : State) (i : RegIdx) (v : Fp6) : (writeS u i v).epc = u.epc := rfl
@[simp] theorem writeS_einfo (u : State) (i : RegIdx) (v : Fp6) : (writeS u i v).einfo = u.einfo := rfl
@[simp] theorem writeS_intrEnable (u : State) (i : RegIdx) (v : Fp6) : (writeS u i v).intrEnable = u.intrEnable := rfl
@[simp] theorem writeS_intrState (u : State) (i : RegIdx) (v : Fp6) : (writeS u i v).intrState = u.intrState := rfl
@[simp] theorem writeS_imem (u : State) (i : RegIdx) (v : Fp6) : (writeS u i v).imem = u.imem := rfl
@[simp] theorem writeS_dmem (u : State) (i : RegIdx) (v : Fp6) : (writeS u i v).dmem = u.dmem := rfl

@[simp] theorem writeT_t (u : State) (i : RegIdx) (v : Fp12) : (writeT u i v).t = u.t.set i v := rfl
@[simp] theorem writeT_r (u : State) (i : RegIdx) (v : Fp12) : (writeT u i v).r = u.r := rfl
@[simp] theorem writeT_pc (u : State) (i : RegIdx) (v : Fp12) : (writeT u i v).pc = u.pc := rfl
@[simp] theorem writeT_f (u : State) (i : RegIdx) (v : Fp12) : (writeT u i v).f = u.f := rfl
@[simp] theorem writeT_q (u : State) (i : RegIdx) (v : Fp12) : (writeT u i v).q = u.q := rfl
@[simp] theorem writeT_s (u : State) (i : RegIdx) (v : Fp12) : (writeT u i v).s = u.s := rfl
@[simp] theorem writeT_g (u : State) (i : RegIdx) (v : Fp12) : (writeT u i v).g = u.g := rfl
@[simp] theorem writeT_h (u : State) (i : RegIdx) (v : Fp12) : (writeT u i v).h = u.h := rfl
@[simp] theorem writeT_k (u : State) (i : RegIdx) (v : Fp12) : (writeT u i v).k = u.k := rfl
@[simp] theorem writeT_dstBuf (u : State) (i : RegIdx) (v : Fp12) : (writeT u i v).dstBuf = u.dstBuf := rfl
@[simp] theorem writeT_status (u : State) (i : RegIdx) (v : Fp12) : (writeT u i v).status = u.status := rfl
@[simp] theorem writeT_startPc (u : State) (i : RegIdx) (v : Fp12) : (writeT u i v).startPc = u.startPc := rfl
@[simp] theorem writeT_ecause (u : State) (i : RegIdx) (v : Fp12) : (writeT u i v).ecause = u.ecause := rfl
@[simp] theorem writeT_epc (u : State) (i : RegIdx) (v : Fp12) : (writeT u i v).epc = u.epc := rfl
@[simp] theorem writeT_einfo (u : State) (i : RegIdx) (v : Fp12) : (writeT u i v).einfo = u.einfo := rfl
@[simp] theorem writeT_intrEnable (u : State) (i : RegIdx) (v : Fp12) : (writeT u i v).intrEnable = u.intrEnable := rfl
@[simp] theorem writeT_intrState (u : State) (i : RegIdx) (v : Fp12) : (writeT u i v).intrState = u.intrState := rfl
@[simp] theorem writeT_imem (u : State) (i : RegIdx) (v : Fp12) : (writeT u i v).imem = u.imem := rfl
@[simp] theorem writeT_dmem (u : State) (i : RegIdx) (v : Fp12) : (writeT u i v).dmem = u.dmem := rfl

@[simp] theorem writeG_g (u : State) (i : RegIdx) (v : Point Fp) : (writeG u i v).g = u.g.set i v := rfl
@[simp] theorem writeG_r (u : State) (i : RegIdx) (v : Point Fp) : (writeG u i v).r = u.r := rfl
@[simp] theorem writeG_pc (u : State) (i : RegIdx) (v : Point Fp) : (writeG u i v).pc = u.pc := rfl
@[simp] theorem writeG_f (u : State) (i : RegIdx) (v : Point Fp) : (writeG u i v).f = u.f := rfl
@[simp] theorem writeG_q (u : State) (i : RegIdx) (v : Point Fp) : (writeG u i v).q = u.q := rfl
@[simp] theorem writeG_s (u : State) (i : RegIdx) (v : Point Fp) : (writeG u i v).s = u.s := rfl
@[simp] theorem writeG_t (u : State) (i : RegIdx) (v : Point Fp) : (writeG u i v).t = u.t := rfl
@[simp] theorem writeG_h (u : State) (i : RegIdx) (v : Point Fp) : (writeG u i v).h = u.h := rfl
@[simp] theorem writeG_k (u : State) (i : RegIdx) (v : Point Fp) : (writeG u i v).k = u.k := rfl
@[simp] theorem writeG_dstBuf (u : State) (i : RegIdx) (v : Point Fp) : (writeG u i v).dstBuf = u.dstBuf := rfl
@[simp] theorem writeG_status (u : State) (i : RegIdx) (v : Point Fp) : (writeG u i v).status = u.status := rfl
@[simp] theorem writeG_startPc (u : State) (i : RegIdx) (v : Point Fp) : (writeG u i v).startPc = u.startPc := rfl
@[simp] theorem writeG_ecause (u : State) (i : RegIdx) (v : Point Fp) : (writeG u i v).ecause = u.ecause := rfl
@[simp] theorem writeG_epc (u : State) (i : RegIdx) (v : Point Fp) : (writeG u i v).epc = u.epc := rfl
@[simp] theorem writeG_einfo (u : State) (i : RegIdx) (v : Point Fp) : (writeG u i v).einfo = u.einfo := rfl
@[simp] theorem writeG_intrEnable (u : State) (i : RegIdx) (v : Point Fp) : (writeG u i v).intrEnable = u.intrEnable := rfl
@[simp] theorem writeG_intrState (u : State) (i : RegIdx) (v : Point Fp) : (writeG u i v).intrState = u.intrState := rfl
@[simp] theorem writeG_imem (u : State) (i : RegIdx) (v : Point Fp) : (writeG u i v).imem = u.imem := rfl
@[simp] theorem writeG_dmem (u : State) (i : RegIdx) (v : Point Fp) : (writeG u i v).dmem = u.dmem := rfl

@[simp] theorem writeH_h (u : State) (i : RegIdx) (v : Point Fp2) : (writeH u i v).h = u.h.set i v := rfl
@[simp] theorem writeH_r (u : State) (i : RegIdx) (v : Point Fp2) : (writeH u i v).r = u.r := rfl
@[simp] theorem writeH_pc (u : State) (i : RegIdx) (v : Point Fp2) : (writeH u i v).pc = u.pc := rfl
@[simp] theorem writeH_f (u : State) (i : RegIdx) (v : Point Fp2) : (writeH u i v).f = u.f := rfl
@[simp] theorem writeH_q (u : State) (i : RegIdx) (v : Point Fp2) : (writeH u i v).q = u.q := rfl
@[simp] theorem writeH_s (u : State) (i : RegIdx) (v : Point Fp2) : (writeH u i v).s = u.s := rfl
@[simp] theorem writeH_t (u : State) (i : RegIdx) (v : Point Fp2) : (writeH u i v).t = u.t := rfl
@[simp] theorem writeH_g (u : State) (i : RegIdx) (v : Point Fp2) : (writeH u i v).g = u.g := rfl
@[simp] theorem writeH_k (u : State) (i : RegIdx) (v : Point Fp2) : (writeH u i v).k = u.k := rfl
@[simp] theorem writeH_dstBuf (u : State) (i : RegIdx) (v : Point Fp2) : (writeH u i v).dstBuf = u.dstBuf := rfl
@[simp] theorem writeH_status (u : State) (i : RegIdx) (v : Point Fp2) : (writeH u i v).status = u.status := rfl
@[simp] theorem writeH_startPc (u : State) (i : RegIdx) (v : Point Fp2) : (writeH u i v).startPc = u.startPc := rfl
@[simp] theorem writeH_ecause (u : State) (i : RegIdx) (v : Point Fp2) : (writeH u i v).ecause = u.ecause := rfl
@[simp] theorem writeH_epc (u : State) (i : RegIdx) (v : Point Fp2) : (writeH u i v).epc = u.epc := rfl
@[simp] theorem writeH_einfo (u : State) (i : RegIdx) (v : Point Fp2) : (writeH u i v).einfo = u.einfo := rfl
@[simp] theorem writeH_intrEnable (u : State) (i : RegIdx) (v : Point Fp2) : (writeH u i v).intrEnable = u.intrEnable := rfl
@[simp] theorem writeH_intrState (u : State) (i : RegIdx) (v : Point Fp2) : (writeH u i v).intrState = u.intrState := rfl
@[simp] theorem writeH_imem (u : State) (i : RegIdx) (v : Point Fp2) : (writeH u i v).imem = u.imem := rfl
@[simp] theorem writeH_dmem (u : State) (i : RegIdx) (v : Point Fp2) : (writeH u i v).dmem = u.dmem := rfl

@[simp] theorem writeK_k (u : State) (i : RegIdx) (v : Scalar) : (writeK u i v).k = u.k.set i v := rfl
@[simp] theorem writeK_r (u : State) (i : RegIdx) (v : Scalar) : (writeK u i v).r = u.r := rfl
@[simp] theorem writeK_pc (u : State) (i : RegIdx) (v : Scalar) : (writeK u i v).pc = u.pc := rfl
@[simp] theorem writeK_f (u : State) (i : RegIdx) (v : Scalar) : (writeK u i v).f = u.f := rfl
@[simp] theorem writeK_q (u : State) (i : RegIdx) (v : Scalar) : (writeK u i v).q = u.q := rfl
@[simp] theorem writeK_s (u : State) (i : RegIdx) (v : Scalar) : (writeK u i v).s = u.s := rfl
@[simp] theorem writeK_t (u : State) (i : RegIdx) (v : Scalar) : (writeK u i v).t = u.t := rfl
@[simp] theorem writeK_g (u : State) (i : RegIdx) (v : Scalar) : (writeK u i v).g = u.g := rfl
@[simp] theorem writeK_h (u : State) (i : RegIdx) (v : Scalar) : (writeK u i v).h = u.h := rfl
@[simp] theorem writeK_dstBuf (u : State) (i : RegIdx) (v : Scalar) : (writeK u i v).dstBuf = u.dstBuf := rfl
@[simp] theorem writeK_status (u : State) (i : RegIdx) (v : Scalar) : (writeK u i v).status = u.status := rfl
@[simp] theorem writeK_startPc (u : State) (i : RegIdx) (v : Scalar) : (writeK u i v).startPc = u.startPc := rfl
@[simp] theorem writeK_ecause (u : State) (i : RegIdx) (v : Scalar) : (writeK u i v).ecause = u.ecause := rfl
@[simp] theorem writeK_epc (u : State) (i : RegIdx) (v : Scalar) : (writeK u i v).epc = u.epc := rfl
@[simp] theorem writeK_einfo (u : State) (i : RegIdx) (v : Scalar) : (writeK u i v).einfo = u.einfo := rfl
@[simp] theorem writeK_intrEnable (u : State) (i : RegIdx) (v : Scalar) : (writeK u i v).intrEnable = u.intrEnable := rfl
@[simp] theorem writeK_intrState (u : State) (i : RegIdx) (v : Scalar) : (writeK u i v).intrState = u.intrState := rfl
@[simp] theorem writeK_imem (u : State) (i : RegIdx) (v : Scalar) : (writeK u i v).imem = u.imem := rfl
@[simp] theorem writeK_dmem (u : State) (i : RegIdx) (v : Scalar) : (writeK u i v).dmem = u.dmem := rfl

@[simp] theorem writeR_pc (u : State) (i : RegIdx) (v : Word) : (writeR u i v).pc = u.pc := by
  simp only [writeR]; split <;> rfl
@[simp] theorem writeR_f (u : State) (i : RegIdx) (v : Word) : (writeR u i v).f = u.f := by
  simp only [writeR]; split <;> rfl
@[simp] theorem writeR_q (u : State) (i : RegIdx) (v : Word) : (writeR u i v).q = u.q := by
  simp only [writeR]; split <;> rfl
@[simp] theorem writeR_s (u : State) (i : RegIdx) (v : Word) : (writeR u i v).s = u.s := by
  simp only [writeR]; split <;> rfl
@[simp] theorem writeR_t (u : State) (i : RegIdx) (v : Word) : (writeR u i v).t = u.t := by
  simp only [writeR]; split <;> rfl
@[simp] theorem writeR_g (u : State) (i : RegIdx) (v : Word) : (writeR u i v).g = u.g := by
  simp only [writeR]; split <;> rfl
@[simp] theorem writeR_h (u : State) (i : RegIdx) (v : Word) : (writeR u i v).h = u.h := by
  simp only [writeR]; split <;> rfl
@[simp] theorem writeR_k (u : State) (i : RegIdx) (v : Word) : (writeR u i v).k = u.k := by
  simp only [writeR]; split <;> rfl
@[simp] theorem writeR_dstBuf (u : State) (i : RegIdx) (v : Word) : (writeR u i v).dstBuf = u.dstBuf := by
  simp only [writeR]; split <;> rfl
@[simp] theorem writeR_status (u : State) (i : RegIdx) (v : Word) : (writeR u i v).status = u.status := by
  simp only [writeR]; split <;> rfl
@[simp] theorem writeR_startPc (u : State) (i : RegIdx) (v : Word) : (writeR u i v).startPc = u.startPc := by
  simp only [writeR]; split <;> rfl
@[simp] theorem writeR_ecause (u : State) (i : RegIdx) (v : Word) : (writeR u i v).ecause = u.ecause := by
  simp only [writeR]; split <;> rfl
@[simp] theorem writeR_epc (u : State) (i : RegIdx) (v : Word) : (writeR u i v).epc = u.epc := by
  simp only [writeR]; split <;> rfl
@[simp] theorem writeR_einfo (u : State) (i : RegIdx) (v : Word) : (writeR u i v).einfo = u.einfo := by
  simp only [writeR]; split <;> rfl
@[simp] theorem writeR_intrEnable (u : State) (i : RegIdx) (v : Word) : (writeR u i v).intrEnable = u.intrEnable := by
  simp only [writeR]; split <;> rfl
@[simp] theorem writeR_intrState (u : State) (i : RegIdx) (v : Word) : (writeR u i v).intrState = u.intrState := by
  simp only [writeR]; split <;> rfl
@[simp] theorem writeR_imem (u : State) (i : RegIdx) (v : Word) : (writeR u i v).imem = u.imem := by
  simp only [writeR]; split <;> rfl
@[simp] theorem writeR_dmem (u : State) (i : RegIdx) (v : Word) : (writeR u i v).dmem = u.dmem := by
  simp only [writeR]; split <;> rfl

theorem writeR_r (u : State) (i : RegIdx) (v : Word) :
    (writeR u i v).r = if i = 0 then u.r else u.r.set i v := by
  simp only [writeR]; split <;> rfl

@[simp] theorem takeException_r (u : State) (e : Exn) : (takeException u e).r = u.r := rfl
@[simp] theorem takeException_pc (u : State) (e : Exn) : (takeException u e).pc = u.pc := rfl
@[simp] theorem takeException_f (u : State) (e : Exn) : (takeException u e).f = u.f := rfl
@[simp] theorem takeException_q (u : State) (e : Exn) : (takeException u e).q = u.q := rfl
@[simp] theorem takeException_s (u : State) (e : Exn) : (takeException u e).s = u.s := rfl
@[simp] theorem takeException_t (u : State) (e : Exn) : (takeException u e).t = u.t := rfl
@[simp] theorem takeException_g (u : State) (e : Exn) : (takeException u e).g = u.g := rfl
@[simp] theorem takeException_h (u : State) (e : Exn) : (takeException u e).h = u.h := rfl
@[simp] theorem takeException_k (u : State) (e : Exn) : (takeException u e).k = u.k := rfl
@[simp] theorem takeException_dstBuf (u : State) (e : Exn) : (takeException u e).dstBuf = u.dstBuf := rfl
@[simp] theorem takeException_status (u : State) (e : Exn) : (takeException u e).status = .error := rfl
@[simp] theorem takeException_startPc (u : State) (e : Exn) : (takeException u e).startPc = u.startPc := rfl
@[simp] theorem takeException_ecause (u : State) (e : Exn) : (takeException u e).ecause = BitVec.ofNat 32 (causeCode e.cause) := rfl
@[simp] theorem takeException_epc (u : State) (e : Exn) : (takeException u e).epc = u.pc := rfl
@[simp] theorem takeException_einfo (u : State) (e : Exn) : (takeException u e).einfo = e.info := rfl
@[simp] theorem takeException_intrEnable (u : State) (e : Exn) : (takeException u e).intrEnable = u.intrEnable := rfl
@[simp] theorem takeException_intrState (u : State) (e : Exn) : (takeException u e).intrState = u.intrState ||| 2 := rfl
@[simp] theorem takeException_imem (u : State) (e : Exn) : (takeException u e).imem = u.imem := rfl
@[simp] theorem takeException_dmem (u : State) (e : Exn) : (takeException u e).dmem = u.dmem := rfl

@[simp] theorem haltRun_r (u : State) : (haltRun u).r = u.r := rfl
@[simp] theorem haltRun_pc (u : State) : (haltRun u).pc = u.pc := rfl
@[simp] theorem haltRun_f (u : State) : (haltRun u).f = u.f := rfl
@[simp] theorem haltRun_q (u : State) : (haltRun u).q = u.q := rfl
@[simp] theorem haltRun_s (u : State) : (haltRun u).s = u.s := rfl
@[simp] theorem haltRun_t (u : State) : (haltRun u).t = u.t := rfl
@[simp] theorem haltRun_g (u : State) : (haltRun u).g = u.g := rfl
@[simp] theorem haltRun_h (u : State) : (haltRun u).h = u.h := rfl
@[simp] theorem haltRun_k (u : State) : (haltRun u).k = u.k := rfl
@[simp] theorem haltRun_dstBuf (u : State) : (haltRun u).dstBuf = u.dstBuf := rfl
@[simp] theorem haltRun_status (u : State) : (haltRun u).status = .done := rfl
@[simp] theorem haltRun_startPc (u : State) : (haltRun u).startPc = u.startPc := rfl
@[simp] theorem haltRun_ecause (u : State) : (haltRun u).ecause = u.ecause := rfl
@[simp] theorem haltRun_epc (u : State) : (haltRun u).epc = u.epc := rfl
@[simp] theorem haltRun_einfo (u : State) : (haltRun u).einfo = u.einfo := rfl
@[simp] theorem haltRun_intrEnable (u : State) : (haltRun u).intrEnable = u.intrEnable := rfl
@[simp] theorem haltRun_intrState (u : State) : (haltRun u).intrState = u.intrState ||| 1 := rfl
@[simp] theorem haltRun_imem (u : State) : (haltRun u).imem = u.imem := rfl
@[simp] theorem haltRun_dmem (u : State) : (haltRun u).dmem = u.dmem := rfl

@[simp] theorem startRun_r (u : State) : (startRun u).r = u.r := rfl
@[simp] theorem startRun_pc (u : State) : (startRun u).pc = u.startPc := rfl
@[simp] theorem startRun_f (u : State) : (startRun u).f = u.f := rfl
@[simp] theorem startRun_q (u : State) : (startRun u).q = u.q := rfl
@[simp] theorem startRun_s (u : State) : (startRun u).s = u.s := rfl
@[simp] theorem startRun_t (u : State) : (startRun u).t = u.t := rfl
@[simp] theorem startRun_g (u : State) : (startRun u).g = u.g := rfl
@[simp] theorem startRun_h (u : State) : (startRun u).h = u.h := rfl
@[simp] theorem startRun_k (u : State) : (startRun u).k = u.k := rfl
@[simp] theorem startRun_dstBuf (u : State) : (startRun u).dstBuf = u.dstBuf := rfl
@[simp] theorem startRun_status (u : State) : (startRun u).status = .busy := rfl
@[simp] theorem startRun_startPc (u : State) : (startRun u).startPc = u.startPc := rfl
@[simp] theorem startRun_ecause (u : State) : (startRun u).ecause = 0 := rfl
@[simp] theorem startRun_epc (u : State) : (startRun u).epc = 0 := rfl
@[simp] theorem startRun_einfo (u : State) : (startRun u).einfo = 0 := rfl
@[simp] theorem startRun_intrEnable (u : State) : (startRun u).intrEnable = u.intrEnable := rfl
@[simp] theorem startRun_intrState (u : State) : (startRun u).intrState = u.intrState := rfl
@[simp] theorem startRun_imem (u : State) : (startRun u).imem = u.imem := rfl
@[simp] theorem startRun_dmem (u : State) : (startRun u).dmem = u.dmem := rfl

@[simp] theorem setPc_r (u : State) (v : Word) : (setPc u v).r = u.r := rfl
@[simp] theorem setPc_pc (u : State) (v : Word) : (setPc u v).pc = v := rfl
@[simp] theorem setPc_f (u : State) (v : Word) : (setPc u v).f = u.f := rfl
@[simp] theorem setPc_q (u : State) (v : Word) : (setPc u v).q = u.q := rfl
@[simp] theorem setPc_s (u : State) (v : Word) : (setPc u v).s = u.s := rfl
@[simp] theorem setPc_t (u : State) (v : Word) : (setPc u v).t = u.t := rfl
@[simp] theorem setPc_g (u : State) (v : Word) : (setPc u v).g = u.g := rfl
@[simp] theorem setPc_h (u : State) (v : Word) : (setPc u v).h = u.h := rfl
@[simp] theorem setPc_k (u : State) (v : Word) : (setPc u v).k = u.k := rfl
@[simp] theorem setPc_dstBuf (u : State) (v : Word) : (setPc u v).dstBuf = u.dstBuf := rfl
@[simp] theorem setPc_status (u : State) (v : Word) : (setPc u v).status = u.status := rfl
@[simp] theorem setPc_startPc (u : State) (v : Word) : (setPc u v).startPc = u.startPc := rfl
@[simp] theorem setPc_ecause (u : State) (v : Word) : (setPc u v).ecause = u.ecause := rfl
@[simp] theorem setPc_epc (u : State) (v : Word) : (setPc u v).epc = u.epc := rfl
@[simp] theorem setPc_einfo (u : State) (v : Word) : (setPc u v).einfo = u.einfo := rfl
@[simp] theorem setPc_intrEnable (u : State) (v : Word) : (setPc u v).intrEnable = u.intrEnable := rfl
@[simp] theorem setPc_intrState (u : State) (v : Word) : (setPc u v).intrState = u.intrState := rfl
@[simp] theorem setPc_imem (u : State) (v : Word) : (setPc u v).imem = u.imem := rfl
@[simp] theorem setPc_dmem (u : State) (v : Word) : (setPc u v).dmem = u.dmem := rfl

@[simp] theorem setDmem_r (u : State) (v : List Host.Cell) : (setDmem u v).r = u.r := rfl
@[simp] theorem setDmem_pc (u : State) (v : List Host.Cell) : (setDmem u v).pc = u.pc := rfl
@[simp] theorem setDmem_f (u : State) (v : List Host.Cell) : (setDmem u v).f = u.f := rfl
@[simp] theorem setDmem_q (u : State) (v : List Host.Cell) : (setDmem u v).q = u.q := rfl
@[simp] theorem setDmem_s (u : State) (v : List Host.Cell) : (setDmem u v).s = u.s := rfl
@[simp] theorem setDmem_t (u : State) (v : List Host.Cell) : (setDmem u v).t = u.t := rfl
@[simp] theorem setDmem_g (u : State) (v : List Host.Cell) : (setDmem u v).g = u.g := rfl
@[simp] theorem setDmem_h (u : State) (v : List Host.Cell) : (setDmem u v).h = u.h := rfl
@[simp] theorem setDmem_k (u : State) (v : List Host.Cell) : (setDmem u v).k = u.k := rfl
@[simp] theorem setDmem_dstBuf (u : State) (v : List Host.Cell) : (setDmem u v).dstBuf = u.dstBuf := rfl
@[simp] theorem setDmem_status (u : State) (v : List Host.Cell) : (setDmem u v).status = u.status := rfl
@[simp] theorem setDmem_startPc (u : State) (v : List Host.Cell) : (setDmem u v).startPc = u.startPc := rfl
@[simp] theorem setDmem_ecause (u : State) (v : List Host.Cell) : (setDmem u v).ecause = u.ecause := rfl
@[simp] theorem setDmem_epc (u : State) (v : List Host.Cell) : (setDmem u v).epc = u.epc := rfl
@[simp] theorem setDmem_einfo (u : State) (v : List Host.Cell) : (setDmem u v).einfo = u.einfo := rfl
@[simp] theorem setDmem_intrEnable (u : State) (v : List Host.Cell) : (setDmem u v).intrEnable = u.intrEnable := rfl
@[simp] theorem setDmem_intrState (u : State) (v : List Host.Cell) : (setDmem u v).intrState = u.intrState := rfl
@[simp] theorem setDmem_imem (u : State) (v : List Host.Cell) : (setDmem u v).imem = u.imem := rfl
@[simp] theorem setDmem_dmem (u : State) (v : List Host.Cell) : (setDmem u v).dmem = v := rfl

@[simp] theorem setTag_r (u : State) (v : List Byte) : (setTag u v).r = u.r := rfl
@[simp] theorem setTag_pc (u : State) (v : List Byte) : (setTag u v).pc = u.pc := rfl
@[simp] theorem setTag_f (u : State) (v : List Byte) : (setTag u v).f = u.f := rfl
@[simp] theorem setTag_q (u : State) (v : List Byte) : (setTag u v).q = u.q := rfl
@[simp] theorem setTag_s (u : State) (v : List Byte) : (setTag u v).s = u.s := rfl
@[simp] theorem setTag_t (u : State) (v : List Byte) : (setTag u v).t = u.t := rfl
@[simp] theorem setTag_g (u : State) (v : List Byte) : (setTag u v).g = u.g := rfl
@[simp] theorem setTag_h (u : State) (v : List Byte) : (setTag u v).h = u.h := rfl
@[simp] theorem setTag_k (u : State) (v : List Byte) : (setTag u v).k = u.k := rfl
@[simp] theorem setTag_dstBuf (u : State) (v : List Byte) : (setTag u v).dstBuf = v := rfl
@[simp] theorem setTag_status (u : State) (v : List Byte) : (setTag u v).status = u.status := rfl
@[simp] theorem setTag_startPc (u : State) (v : List Byte) : (setTag u v).startPc = u.startPc := rfl
@[simp] theorem setTag_ecause (u : State) (v : List Byte) : (setTag u v).ecause = u.ecause := rfl
@[simp] theorem setTag_epc (u : State) (v : List Byte) : (setTag u v).epc = u.epc := rfl
@[simp] theorem setTag_einfo (u : State) (v : List Byte) : (setTag u v).einfo = u.einfo := rfl
@[simp] theorem setTag_intrEnable (u : State) (v : List Byte) : (setTag u v).intrEnable = u.intrEnable := rfl
@[simp] theorem setTag_intrState (u : State) (v : List Byte) : (setTag u v).intrState = u.intrState := rfl
@[simp] theorem setTag_imem (u : State) (v : List Byte) : (setTag u v).imem = u.imem := rfl
@[simp] theorem setTag_dmem (u : State) (v : List Byte) : (setTag u v).dmem = u.dmem := rfl

end Sys2Proof.Machine
end

