-- ==== Sys2Proof/Laws/Ops.lean ====
section
/-! SUPPORT. One lemma for each shared operation of Machine/Ops.lean and Machine/Operands.lean: what a register reads
after a write, what ending an instruction answers, and everything `memRead`, `memWrite`, `fetchWord`, `fetchInstr`
and `regRun` can do. -/

namespace Sys2Proof.Machine

open Sys2Proof

/-- Reading a register file after a write. -/
theorem get_set {α : Type} (file : RegFile α) (i j : RegIdx) (x : α) :
    (file.set i x).get j = if j = i then x else file.get j := by
  simp only [Vector.get_eq_getElem, Vector.getElem_set, Fin.ext_iff, eq_comm]

@[simp] theorem readR_zero (s : State) : readR s 0 = 0 := rfl

/-- What `r[j]` reads after `r[i] <- v`: `r0` reads 0 whatever was written (spec/10_state.md R31). -/
theorem readR_writeR (s : State) (i j : RegIdx) (v : Word) :
    readR (writeR s i v) j = if j = i then asWritten i v else readR s j := by
  simp only [readR, writeR, asWritten]
  by_cases hi : i = 0
  · subst hi
    by_cases hj : j = 0 <;> simp [hj]
  · by_cases hj : j = 0
    · subst hj
      have : (0 : RegIdx) ≠ i := fun e => hi e.symm
      simp [this]
    · simp [hi, hj, get_set]

@[simp] theorem readR_writeR_same (s : State) (i : RegIdx) (v : Word) :
    readR (writeR s i v) i = asWritten i v := by simp [readR_writeR]

theorem readR_writeR_other (s : State) (i j : RegIdx) (v : Word) (h : j ≠ i) :
    readR (writeR s i v) j = readR s j := by simp [readR_writeR, h]

/-- What `f[j]` reads after `f[i] <- v`. -/
theorem readF_writeF (s : State) (i j : RegIdx) (v : Fp) :
    readF (writeF s i v) j = if j = i then v else readF s j := by
  simp only [readF, writeF, get_set]

@[simp] theorem readF_writeF_same (s : State) (i : RegIdx) (v : Fp) :
    readF (writeF s i v) i = v := by simp [readF_writeF]

theorem readF_writeF_other (s : State) (i j : RegIdx) (v : Fp) (h : j ≠ i) :
    readF (writeF s i v) j = readF s j := by simp [readF_writeF, h]

/-- What `q[j]` reads after `q[i] <- v`. -/
theorem readQ_writeQ (s : State) (i j : RegIdx) (v : Fp2) :
    readQ (writeQ s i v) j = if j = i then v else readQ s j := by
  simp only [readQ, writeQ, get_set]

@[simp] theorem readQ_writeQ_same (s : State) (i : RegIdx) (v : Fp2) :
    readQ (writeQ s i v) i = v := by simp [readQ_writeQ]

theorem readQ_writeQ_other (s : State) (i j : RegIdx) (v : Fp2) (h : j ≠ i) :
    readQ (writeQ s i v) j = readQ s j := by simp [readQ_writeQ, h]

/-- What `s[j]` reads after `s[i] <- v`. -/
theorem readS_writeS (s : State) (i j : RegIdx) (v : Fp6) :
    readS (writeS s i v) j = if j = i then v else readS s j := by
  simp only [readS, writeS, get_set]

@[simp] theorem readS_writeS_same (s : State) (i : RegIdx) (v : Fp6) :
    readS (writeS s i v) i = v := by simp [readS_writeS]

theorem readS_writeS_other (s : State) (i j : RegIdx) (v : Fp6) (h : j ≠ i) :
    readS (writeS s i v) j = readS s j := by simp [readS_writeS, h]

/-- What `t[j]` reads after `t[i] <- v`. -/
theorem readT_writeT (s : State) (i j : RegIdx) (v : Fp12) :
    readT (writeT s i v) j = if j = i then v else readT s j := by
  simp only [readT, writeT, get_set]

@[simp] theorem readT_writeT_same (s : State) (i : RegIdx) (v : Fp12) :
    readT (writeT s i v) i = v := by simp [readT_writeT]

theorem readT_writeT_other (s : State) (i j : RegIdx) (v : Fp12) (h : j ≠ i) :
    readT (writeT s i v) j = readT s j := by simp [readT_writeT, h]

/-- What `g[j]` reads after `g[i] <- v`. -/
theorem readG_writeG (s : State) (i j : RegIdx) (v : Point Fp) :
    readG (writeG s i v) j = if j = i then v else readG s j := by
  simp only [readG, writeG, get_set]

@[simp] theorem readG_writeG_same (s : State) (i : RegIdx) (v : Point Fp) :
    readG (writeG s i v) i = v := by simp [readG_writeG]

theorem readG_writeG_other (s : State) (i j : RegIdx) (v : Point Fp) (h : j ≠ i) :
    readG (writeG s i v) j = readG s j := by simp [readG_writeG, h]

/-- What `h[j]` reads after `h[i] <- v`. -/
theorem readH_writeH (s : State) (i j : RegIdx) (v : Point Fp2) :
    readH (writeH s i v) j = if j = i then v else readH s j := by
  simp only [readH, writeH, get_set]

@[simp] theorem readH_writeH_same (s : State) (i : RegIdx) (v : Point Fp2) :
    readH (writeH s i v) i = v := by simp [readH_writeH]

theorem readH_writeH_other (s : State) (i j : RegIdx) (v : Point Fp2) (h : j ≠ i) :
    readH (writeH s i v) j = readH s j := by simp [readH_writeH, h]

/-- What `k[j]` reads after `k[i] <- v`. -/
theorem readK_writeK (s : State) (i j : RegIdx) (v : Scalar) :
    readK (writeK s i v) j = if j = i then v else readK s j := by
  simp only [readK, writeK, get_set]

@[simp] theorem readK_writeK_same (s : State) (i : RegIdx) (v : Scalar) :
    readK (writeK s i v) i = v := by simp [readK_writeK]

theorem readK_writeK_other (s : State) (i j : RegIdx) (v : Scalar) (h : j ≠ i) :
    readK (writeK s i v) j = readK s j := by simp [readK_writeK, h]

@[simp] theorem readR_writeF (s : State) (i j : RegIdx) (v : Fp) :
    readR (writeF s i v) j = readR s j := rfl
@[simp] theorem readR_writeQ (s : State) (i j : RegIdx) (v : Fp2) :
    readR (writeQ s i v) j = readR s j := rfl
@[simp] theorem readR_writeS (s : State) (i j : RegIdx) (v : Fp6) :
    readR (writeS s i v) j = readR s j := rfl
@[simp] theorem readR_writeT (s : State) (i j : RegIdx) (v : Fp12) :
    readR (writeT s i v) j = readR s j := rfl
@[simp] theorem readR_writeG (s : State) (i j : RegIdx) (v : Point Fp) :
    readR (writeG s i v) j = readR s j := rfl
@[simp] theorem readR_writeH (s : State) (i j : RegIdx) (v : Point Fp2) :
    readR (writeH s i v) j = readR s j := rfl
@[simp] theorem readR_writeK (s : State) (i j : RegIdx) (v : Scalar) :
    readR (writeK s i v) j = readR s j := rfl
@[simp] theorem readR_setPc (s : State) (j : RegIdx) (v : Word) : readR (setPc s v) j = readR s j := rfl
@[simp] theorem readR_setDmem (s : State) (j : RegIdx) (v : List Host.Cell) : readR (setDmem s v) j = readR s j := rfl
@[simp] theorem readR_setTag (s : State) (j : RegIdx) (v : List Byte) : readR (setTag s v) j = readR s j := rfl
@[simp] theorem readR_takeException (s : State) (j : RegIdx) (e : Exn) :
    readR (takeException s e) j = readR s j := rfl
@[simp] theorem readR_haltRun (s : State) (j : RegIdx) : readR (haltRun s) j = readR s j := rfl

@[simp] theorem readF_writeR (s : State) (i j : RegIdx) (v : Word) :
    readF (writeR s i v) j = readF s j := by
  simp only [readF, writeR_f]
@[simp] theorem readF_writeQ (s : State) (i j : RegIdx) (v : Fp2) :
    readF (writeQ s i v) j = readF s j := rfl
@[simp] theorem readF_writeS (s : State) (i j : RegIdx) (v : Fp6) :
    readF (writeS s i v) j = readF s j := rfl
@[simp] theorem readF_writeT (s : State) (i j : RegIdx) (v : Fp12) :
    readF (writeT s i v) j = readF s j := rfl
@[simp] theorem readF_writeG (s : State) (i j : RegIdx) (v : Point Fp) :
    readF (writeG s i v) j = readF s j := rfl
@[simp] theorem readF_writeH (s : State) (i j : RegIdx) (v : Point Fp2) :
    readF (writeH s i v) j = readF s j := rfl
@[simp] theorem readF_writeK (s : State) (i j : RegIdx) (v : Scalar) :
    readF (writeK s i v) j = readF s j := rfl
@[simp] theorem readF_setPc (s : State) (j : RegIdx) (v : Word) : readF (setPc s v) j = readF s j := rfl
@[simp] theorem readF_setDmem (s : State) (j : RegIdx) (v : List Host.Cell) : readF (setDmem s v) j = readF s j := rfl
@[simp] theorem readF_setTag (s : State) (j : RegIdx) (v : List Byte) : readF (setTag s v) j = readF s j := rfl
@[simp] theorem readF_takeException (s : State) (j : RegIdx) (e : Exn) :
    readF (takeException s e) j = readF s j := rfl
@[simp] theorem readF_haltRun (s : State) (j : RegIdx) : readF (haltRun s) j = readF s j := rfl

@[simp] theorem readQ_writeR (s : State) (i j : RegIdx) (v : Word) :
    readQ (writeR s i v) j = readQ s j := by
  simp only [readQ, writeR_q]
@[simp] theorem readQ_writeF (s : State) (i j : RegIdx) (v : Fp) :
    readQ (writeF s i v) j = readQ s j := rfl
@[simp] theorem readQ_writeS (s : State) (i j : RegIdx) (v : Fp6) :
    readQ (writeS s i v) j = readQ s j := rfl
@[simp] theorem readQ_writeT (s : State) (i j : RegIdx) (v : Fp12) :
    readQ (writeT s i v) j = readQ s j := rfl
@[simp] theorem readQ_writeG (s : State) (i j : RegIdx) (v : Point Fp) :
    readQ (writeG s i v) j = readQ s j := rfl
@[simp] theorem readQ_writeH (s : State) (i j : RegIdx) (v : Point Fp2) :
    readQ (writeH s i v) j = readQ s j := rfl
@[simp] theorem readQ_writeK (s : State) (i j : RegIdx) (v : Scalar) :
    readQ (writeK s i v) j = readQ s j := rfl
@[simp] theorem readQ_setPc (s : State) (j : RegIdx) (v : Word) : readQ (setPc s v) j = readQ s j := rfl
@[simp] theorem readQ_setDmem (s : State) (j : RegIdx) (v : List Host.Cell) : readQ (setDmem s v) j = readQ s j := rfl
@[simp] theorem readQ_setTag (s : State) (j : RegIdx) (v : List Byte) : readQ (setTag s v) j = readQ s j := rfl
@[simp] theorem readQ_takeException (s : State) (j : RegIdx) (e : Exn) :
    readQ (takeException s e) j = readQ s j := rfl
@[simp] theorem readQ_haltRun (s : State) (j : RegIdx) : readQ (haltRun s) j = readQ s j := rfl

@[simp] theorem readS_writeR (s : State) (i j : RegIdx) (v : Word) :
    readS (writeR s i v) j = readS s j := by
  simp only [readS, writeR_s]
@[simp] theorem readS_writeF (s : State) (i j : RegIdx) (v : Fp) :
    readS (writeF s i v) j = readS s j := rfl
@[simp] theorem readS_writeQ (s : State) (i j : RegIdx) (v : Fp2) :
    readS (writeQ s i v) j = readS s j := rfl
@[simp] theorem readS_writeT (s : State) (i j : RegIdx) (v : Fp12) :
    readS (writeT s i v) j = readS s j := rfl
@[simp] theorem readS_writeG (s : State) (i j : RegIdx) (v : Point Fp) :
    readS (writeG s i v) j = readS s j := rfl
@[simp] theorem readS_writeH (s : State) (i j : RegIdx) (v : Point Fp2) :
    readS (writeH s i v) j = readS s j := rfl
@[simp] theorem readS_writeK (s : State) (i j : RegIdx) (v : Scalar) :
    readS (writeK s i v) j = readS s j := rfl
@[simp] theorem readS_setPc (s : State) (j : RegIdx) (v : Word) : readS (setPc s v) j = readS s j := rfl
@[simp] theorem readS_setDmem (s : State) (j : RegIdx) (v : List Host.Cell) : readS (setDmem s v) j = readS s j := rfl
@[simp] theorem readS_setTag (s : State) (j : RegIdx) (v : List Byte) : readS (setTag s v) j = readS s j := rfl
@[simp] theorem readS_takeException (s : State) (j : RegIdx) (e : Exn) :
    readS (takeException s e) j = readS s j := rfl
@[simp] theorem readS_haltRun (s : State) (j : RegIdx) : readS (haltRun s) j = readS s j := rfl

@[simp] theorem readT_writeR (s : State) (i j : RegIdx) (v : Word) :
    readT (writeR s i v) j = readT s j := by
  simp only [readT, writeR_t]
@[simp] theorem readT_writeF (s : State) (i j : RegIdx) (v : Fp) :
    readT (writeF s i v) j = readT s j := rfl
@[simp] theorem readT_writeQ (s : State) (i j : RegIdx) (v : Fp2) :
    readT (writeQ s i v) j = readT s j := rfl
@[simp] theorem readT_writeS (s : State) (i j : RegIdx) (v : Fp6) :
    readT (writeS s i v) j = readT s j := rfl
@[simp] theorem readT_writeG (s : State) (i j : RegIdx) (v : Point Fp) :
    readT (writeG s i v) j = readT s j := rfl
@[simp] theorem readT_writeH (s : State) (i j : RegIdx) (v : Point Fp2) :
    readT (writeH s i v) j = readT s j := rfl
@[simp] theorem readT_writeK (s : State) (i j : RegIdx) (v : Scalar) :
    readT (writeK s i v) j = readT s j := rfl
@[simp] theorem readT_setPc (s : State) (j : RegIdx) (v : Word) : readT (setPc s v) j = readT s j := rfl
@[simp] theorem readT_setDmem (s : State) (j : RegIdx) (v : List Host.Cell) : readT (setDmem s v) j = readT s j := rfl
@[simp] theorem readT_setTag (s : State) (j : RegIdx) (v : List Byte) : readT (setTag s v) j = readT s j := rfl
@[simp] theorem readT_takeException (s : State) (j : RegIdx) (e : Exn) :
    readT (takeException s e) j = readT s j := rfl
@[simp] theorem readT_haltRun (s : State) (j : RegIdx) : readT (haltRun s) j = readT s j := rfl

@[simp] theorem readG_writeR (s : State) (i j : RegIdx) (v : Word) :
    readG (writeR s i v) j = readG s j := by
  simp only [readG, writeR_g]
@[simp] theorem readG_writeF (s : State) (i j : RegIdx) (v : Fp) :
    readG (writeF s i v) j = readG s j := rfl
@[simp] theorem readG_writeQ (s : State) (i j : RegIdx) (v : Fp2) :
    readG (writeQ s i v) j = readG s j := rfl
@[simp] theorem readG_writeS (s : State) (i j : RegIdx) (v : Fp6) :
    readG (writeS s i v) j = readG s j := rfl
@[simp] theorem readG_writeT (s : State) (i j : RegIdx) (v : Fp12) :
    readG (writeT s i v) j = readG s j := rfl
@[simp] theorem readG_writeH (s : State) (i j : RegIdx) (v : Point Fp2) :
    readG (writeH s i v) j = readG s j := rfl
@[simp] theorem readG_writeK (s : State) (i j : RegIdx) (v : Scalar) :
    readG (writeK s i v) j = readG s j := rfl
@[simp] theorem readG_setPc (s : State) (j : RegIdx) (v : Word) : readG (setPc s v) j = readG s j := rfl
@[simp] theorem readG_setDmem (s : State) (j : RegIdx) (v : List Host.Cell) : readG (setDmem s v) j = readG s j := rfl
@[simp] theorem readG_setTag (s : State) (j : RegIdx) (v : List Byte) : readG (setTag s v) j = readG s j := rfl
@[simp] theorem readG_takeException (s : State) (j : RegIdx) (e : Exn) :
    readG (takeException s e) j = readG s j := rfl
@[simp] theorem readG_haltRun (s : State) (j : RegIdx) : readG (haltRun s) j = readG s j := rfl

@[simp] theorem readH_writeR (s : State) (i j : RegIdx) (v : Word) :
    readH (writeR s i v) j = readH s j := by
  simp only [readH, writeR_h]
@[simp] theorem readH_writeF (s : State) (i j : RegIdx) (v : Fp) :
    readH (writeF s i v) j = readH s j := rfl
@[simp] theorem readH_writeQ (s : State) (i j : RegIdx) (v : Fp2) :
    readH (writeQ s i v) j = readH s j := rfl
@[simp] theorem readH_writeS (s : State) (i j : RegIdx) (v : Fp6) :
    readH (writeS s i v) j = readH s j := rfl
@[simp] theorem readH_writeT (s : State) (i j : RegIdx) (v : Fp12) :
    readH (writeT s i v) j = readH s j := rfl
@[simp] theorem readH_writeG (s : State) (i j : RegIdx) (v : Point Fp) :
    readH (writeG s i v) j = readH s j := rfl
@[simp] theorem readH_writeK (s : State) (i j : RegIdx) (v : Scalar) :
    readH (writeK s i v) j = readH s j := rfl
@[simp] theorem readH_setPc (s : State) (j : RegIdx) (v : Word) : readH (setPc s v) j = readH s j := rfl
@[simp] theorem readH_setDmem (s : State) (j : RegIdx) (v : List Host.Cell) : readH (setDmem s v) j = readH s j := rfl
@[simp] theorem readH_setTag (s : State) (j : RegIdx) (v : List Byte) : readH (setTag s v) j = readH s j := rfl
@[simp] theorem readH_takeException (s : State) (j : RegIdx) (e : Exn) :
    readH (takeException s e) j = readH s j := rfl
@[simp] theorem readH_haltRun (s : State) (j : RegIdx) : readH (haltRun s) j = readH s j := rfl

@[simp] theorem readK_writeR (s : State) (i j : RegIdx) (v : Word) :
    readK (writeR s i v) j = readK s j := by
  simp only [readK, writeR_k]
@[simp] theorem readK_writeF (s : State) (i j : RegIdx) (v : Fp) :
    readK (writeF s i v) j = readK s j := rfl
@[simp] theorem readK_writeQ (s : State) (i j : RegIdx) (v : Fp2) :
    readK (writeQ s i v) j = readK s j := rfl
@[simp] theorem readK_writeS (s : State) (i j : RegIdx) (v : Fp6) :
    readK (writeS s i v) j = readK s j := rfl
@[simp] theorem readK_writeT (s : State) (i j : RegIdx) (v : Fp12) :
    readK (writeT s i v) j = readK s j := rfl
@[simp] theorem readK_writeG (s : State) (i j : RegIdx) (v : Point Fp) :
    readK (writeG s i v) j = readK s j := rfl
@[simp] theorem readK_writeH (s : State) (i j : RegIdx) (v : Point Fp2) :
    readK (writeH s i v) j = readK s j := rfl
@[simp] theorem readK_setPc (s : State) (j : RegIdx) (v : Word) : readK (setPc s v) j = readK s j := rfl
@[simp] theorem readK_setDmem (s : State) (j : RegIdx) (v : List Host.Cell) : readK (setDmem s v) j = readK s j := rfl
@[simp] theorem readK_setTag (s : State) (j : RegIdx) (v : List Byte) : readK (setTag s v) j = readK s j := rfl
@[simp] theorem readK_takeException (s : State) (j : RegIdx) (e : Exn) :
    readK (takeException s e) j = readK s j := rfl
@[simp] theorem readK_haltRun (s : State) (j : RegIdx) : readK (haltRun s) j = readK s j := rfl

/-! Ending an instruction. -/

@[simp] theorem retire_ok (s u : State) : retire s (.ok u) = .next (setPc u (s.pc + 1)) := rfl

@[simp] theorem retire_error (s : State) (e : Exn) : retire s (.error e) = .next (takeException s e) := rfl

/-- `retire` always answers a next state: the instruction's own at the next index, or the exception taken. -/
theorem retire_cases (s : State) (body : Res State) :
    (∃ u, body = .ok u ∧ retire s body = .next (setPc u (s.pc + 1))) ∨
    (∃ e, body = .error e ∧ retire s body = .next (takeException s e)) := by
  cases body with
  | ok u => exact .inl ⟨u, rfl, rfl⟩
  | error e => exact .inr ⟨e, rfl, rfl⟩

/-- A computation that continues after another: where an answer can come from. -/
theorem res_bind_ok {α β : Type} {x : Res α} {k : α → Res β} {b : β} (h : (x >>= k) = .ok b) :
    ∃ a, x = .ok a ∧ k a = .ok b := by
  cases x with
  | ok a => exact ⟨a, rfl, h⟩
  | error e => cases h

@[simp] theorem res_ok_bind {α β : Type} (a : α) (k : α → Res β) :
    ((Except.ok a : Res α) >>= k) = k a := rfl

@[simp] theorem res_error_bind {α β : Type} (e : Exn) (k : α → Res β) :
    ((Except.error e : Res α) >>= k) = .error e := rfl

/-! Memory accesses. -/

@[simp] theorem readBytes_length (m : List Host.Cell) (a n : Nat) : (readBytes m a n).length = n := by
  induction n generalizing a with
  | zero => rfl
  | succ n ih => simp [readBytes, ih]

/-- Everything `memRead` can do (spec/20_memory.md R72, R74). -/
theorem memRead_cases (s : State) (addr : Word) (n : Nat) :
    (n = 0 ∨ addr.toNat + n ≤ Config.dmemBytes) ∧ memRead s addr n = .ok (readBytes s.dmem addr.toNat n) ∨
    (n ≠ 0 ∧ Config.dmemBytes < addr.toNat + n) ∧ memRead s addr n = .error ⟨.dmemRange, addr⟩ := by
  simp only [memRead]
  by_cases h0 : n = 0
  · subst h0; simp [readBytes]
  · by_cases h : Config.dmemBytes < addr.toNat + n
    · simp [h0, h]
    · simp [h0, h]; omega

/-- What an access that answers has read. -/
theorem memRead_ok {s : State} {addr : Word} {n : Nat} {bytes : List Byte} (h : memRead s addr n = .ok bytes) :
    bytes = readBytes s.dmem addr.toNat n ∧ bytes.length = n := by
  rcases memRead_cases s addr n with ⟨_, e⟩ | ⟨_, e⟩
  · rw [e] at h; cases h; simp
  · rw [e] at h; cases h

/-- An access inside DMEM answers. -/
theorem memRead_in (s : State) (addr : Word) (n : Nat) (h : addr.toNat + n ≤ Config.dmemBytes) :
    memRead s addr n = .ok (readBytes s.dmem addr.toNat n) := by
  rcases memRead_cases s addr n with ⟨_, e⟩ | ⟨h', _⟩
  · exact e
  · omega

/-- Everything `memWrite` can do (spec/20_memory.md R72, R74). -/
theorem memWrite_cases (s : State) (addr : Word) (v : List Byte) :
    (v = [] ∨ addr.toNat + v.length ≤ Config.dmemBytes) ∧
      memWrite s addr v = .ok (setDmem s (writeBytes s.dmem addr.toNat v)) ∨
    (v ≠ [] ∧ Config.dmemBytes < addr.toNat + v.length) ∧ memWrite s addr v = .error ⟨.dmemRange, addr⟩ := by
  simp only [memWrite]
  by_cases h0 : v = []
  · subst h0; simp [writeBytes, setDmem]
  · by_cases h : Config.dmemBytes < addr.toNat + v.length
    · simp [h0, h]
    · simp [h0, h]; omega

/-- A store inside DMEM answers. -/
theorem memWrite_in (s : State) (addr : Word) (v : List Byte)
    (h : addr.toNat + v.length ≤ Config.dmemBytes) :
    memWrite s addr v = .ok (setDmem s (writeBytes s.dmem addr.toNat v)) := by
  rcases memWrite_cases s addr v with ⟨_, e⟩ | ⟨h', _⟩
  · exact e
  · omega

/-- Everything `regRun` can do (spec/60_exceptions.md R473). -/
theorem regRun_cases {α : Type} (file : RegFile α) (b : RegIdx) (n : Nat) :
    b.val + n ≤ 16 ∧ regRun file b n = .ok ((file.toList.drop b.val).take n) ∨
    16 < b.val + n ∧ regRun file b n = .error ⟨.regRange, 0⟩ := by
  simp only [regRun, fails]
  by_cases h : 16 < b.val + n
  · simp [h]
  · simp [h]; omega

/-! Byte strings. -/

@[simp] theorem i2osp_length (v n : Nat) : (i2osp v n).length = n := by
  induction n with
  | zero => rfl
  | succ n ih => simp [i2osp, ih]

theorem os2ip_nil : os2ip [] = 0 := rfl

theorem foldl_os2ip (bytes : List Byte) (acc : Nat) :
    bytes.foldl (fun acc b => acc * 256 + b.toNat) acc = acc * 256 ^ bytes.length + os2ip bytes := by
  induction bytes generalizing acc with
  | nil => simp [os2ip]
  | cons b rest ih =>
    simp only [List.foldl_cons, os2ip, List.length_cons]
    rw [ih, ih (0 * 256 + b.toNat)]
    ring

theorem os2ip_cons (b : Byte) (rest : List Byte) :
    os2ip (b :: rest) = b.toNat * 256 ^ rest.length + os2ip rest := by
  have := foldl_os2ip rest b.toNat
  simpa [os2ip] using this

theorem os2ip_lt (bytes : List Byte) : os2ip bytes < 256 ^ bytes.length := by
  induction bytes with
  | nil => simp [os2ip]
  | cons b rest ih =>
    rw [os2ip_cons, List.length_cons, pow_succ]
    have hb : b.toNat < 256 := b.isLt
    nlinarith [Nat.pow_pos (n := rest.length) (show 0 < 256 by omega)]

/-- `OS2IP` undoes `I2OSP` (spec/00_scope.md R8). -/
theorem os2ip_i2osp (v n : Nat) : os2ip (i2osp v n) = v % 256 ^ n := by
  induction n with
  | zero => simp [i2osp, os2ip, Nat.mod_one]
  | succ n ih =>
    rw [i2osp, os2ip_cons, i2osp_length, ih, BitVec.toNat_ofNat]
    have h := Nat.div_add_mod (v % (256 ^ n * 256)) (256 ^ n)
    rw [Nat.mod_mul_right_div_self, Nat.mod_mul_right_mod] at h
    rw [pow_succ 256 n, ← h]
    norm_num [Nat.mul_comm]

/-- `I2OSP` undoes `OS2IP`. -/
theorem i2osp_os2ip (bytes : List Byte) : i2osp (os2ip bytes) bytes.length = bytes := by
  have key : ∀ (l : List Byte) (k : Nat), i2osp (os2ip l + k * 256 ^ l.length) l.length = l := by
    intro l
    induction l with
    | nil => intro k; rfl
    | cons b rest ih =>
      intro k
      have e : os2ip (b :: rest) + k * 256 ^ (b :: rest).length =
          os2ip rest + (b.toNat + k * 256) * 256 ^ rest.length := by
        rw [os2ip_cons, List.length_cons, pow_succ]; ring
      rw [e, List.length_cons, i2osp, ih]
      have hlt := os2ip_lt rest
      have hd : (os2ip rest + (b.toNat + k * 256) * 256 ^ rest.length) / 256 ^ rest.length =
          b.toNat + k * 256 := by
        rw [Nat.add_mul_div_right _ _ (by positivity), Nat.div_eq_of_lt hlt, Nat.zero_add]
      rw [hd]
      congr 1
      apply BitVec.eq_of_toNat_eq
      rw [BitVec.toNat_ofNat]
      have hb : b.toNat < 256 := b.isLt
      omega
  simpa using key bytes 0

/-! Fetch. -/

/-- Everything fetch and decode can do (spec/60_exceptions.md R472, R474). -/
theorem fetchInstr_cases (s : State) :
    (Config.imemWords ≤ s.pc.toNat ∧ fetchInstr s = .error ⟨.fetchRange, s.pc⟩) ∨
    (s.pc.toNat < Config.imemWords ∧ ∃ e, decode (cellsRead s.imem s.pc.toNat) = .error e ∧
      fetchInstr s = .error ⟨.illegalInstruction, cellsRead s.imem s.pc.toNat⟩) ∨
    (s.pc.toNat < Config.imemWords ∧ ∃ i, decode (cellsRead s.imem s.pc.toNat) = .ok i ∧
      fetchInstr s = .ok i) := by
  by_cases h : Config.imemWords ≤ s.pc.toNat
  · left; exact ⟨h, by simp [fetchInstr, fetchWord, h]⟩
  · right
    have h' : s.pc.toNat < Config.imemWords := by omega
    cases hd : decode (cellsRead s.imem s.pc.toNat) with
    | error e => left; exact ⟨h', e, rfl, by simp [fetchInstr, fetchWord, h, hd]⟩
    | ok i => right; exact ⟨h', i, rfl, by simp [fetchInstr, fetchWord, h, hd]⟩

end Sys2Proof.Machine
end

