-- ==== Sys2Proof/Laws/Memory.lean ====
section
/-! SUPPORT. The memory laws: a read after a write, every other cell unchanged, and every memory operation keeps
the canonical form. -/

namespace Sys2Proof.Machine

open Sys2Proof

/-- A write leaves every other cell alone. -/
theorem cellsRead_write_other {n : Nat} (l : List (Nat × BitVec n)) (key x : Nat) (v : BitVec n) (h : x ≠ key) :
    cellsRead (cellsWrite l key v) x = cellsRead l x := by
  have h' : key ≠ x := fun e => h e.symm
  induction l with
  | nil => by_cases hv : v = 0#n <;> simp [cellsWrite, cellsRead, hv, h']
  | cons c rest ih =>
    obtain ⟨k, w⟩ := c
    simp only [cellsWrite]
    by_cases h1 : key < k
    · by_cases hv : v = 0#n <;> simp [h1, hv, cellsRead, h']
    · by_cases h2 : key = k
      · subst h2; by_cases hv : v = 0#n <;> simp [hv, cellsRead, h']
      · simp [h1, h2, cellsRead, ih]

/-- A key below every listed one reads as zero. -/
theorem cellsRead_below {n : Nat} (l : List (Nat × BitVec n)) (key : Nat) (h : ∀ c ∈ l, key < c.1) :
    cellsRead l key = 0#n := by
  induction l with
  | nil => rfl
  | cons c rest ih =>
    obtain ⟨k, w⟩ := c
    have hk : key < k := h _ (List.mem_cons_self ..)
    simp [cellsRead, show k ≠ key by omega, ih (fun c hc => h c (List.mem_cons_of_mem _ hc))]

/-- In a memory whose keys rise, a written cell reads as written. -/
theorem cellsRead_write_same {n : Nat} (l : List (Nat × BitVec n)) (key : Nat) (v : BitVec n)
    (h : l.Pairwise (fun x y => x.1 < y.1)) : cellsRead (cellsWrite l key v) key = v := by
  induction l with
  | nil => by_cases hv : v = 0#n <;> simp [cellsWrite, cellsRead, hv]
  | cons c rest ih =>
    obtain ⟨k, w⟩ := c
    rw [List.pairwise_cons] at h
    simp only [cellsWrite]
    by_cases h1 : key < k
    · by_cases hv : v = 0#n
      · have hb : cellsRead rest key = 0#n := cellsRead_below rest key (fun c hc => Nat.lt_trans h1 (h.1 c hc))
        simp [h1, hv, cellsRead, show k ≠ key by omega, hb]
      · simp [h1, hv, cellsRead]
    · by_cases h2 : key = k
      · subst h2
        by_cases hv : v = 0#n
        · simp [hv, cellsRead_below rest key h.1]
        · simp [hv, cellsRead]
      · simp [h1, h2, cellsRead, show k ≠ key by omega, ih h.2]

theorem mem_cellsWrite {n : Nat} {l : List (Nat × BitVec n)} {key : Nat} {v : BitVec n} {c : Nat × BitVec n}
    (h : c ∈ cellsWrite l key v) : c ∈ l ∨ (c = (key, v) ∧ v ≠ 0#n) := by
  induction l with
  | nil => by_cases hv : v = 0#n <;> simp_all [cellsWrite]
  | cons d rest ih =>
    obtain ⟨k, w⟩ := d
    simp only [cellsWrite] at h
    by_cases h1 : key < k
    · by_cases hv : v = 0#n
      · simp_all
      · simp_all; tauto
    · by_cases h2 : key = k
      · by_cases hv : v = 0#n
        · simp_all
        · simp_all; tauto
      · simp only [h1, h2, if_false, List.mem_cons] at h
        rcases h with h | h
        · exact .inl (by simp [h])
        · rcases ih h with h | h
          · exact .inl (List.mem_cons_of_mem _ h)
          · exact .inr h

/-- Writing one cell keeps the canonical form. -/
theorem cellsWrite_wf {n : Nat} (bound : Nat) (l : List (Nat × BitVec n)) (key : Nat) (v : BitVec n)
    (hk : key < bound) (h : Cells.wf bound l) : Cells.wf bound (cellsWrite l key v) := by
  obtain ⟨hs, hb⟩ := h
  refine ⟨?_, fun c hc => ?_⟩
  · clear hb
    induction l with
    | nil => by_cases hv : v = 0#n <;> simp [cellsWrite, hv]
    | cons d rest ih =>
      obtain ⟨k, w⟩ := d
      have hs' := hs
      rw [List.pairwise_cons] at hs
      simp only [cellsWrite]
      by_cases h1 : key < k
      · by_cases hv : v = 0#n
        · simpa [h1, hv] using hs'
        · simp only [h1, hv, if_true, if_false, List.pairwise_cons]
          refine ⟨fun c hc => ?_, hs.1, hs.2⟩
          rcases List.mem_cons.1 hc with rfl | hc
          · exact h1
          · exact Nat.lt_trans h1 (hs.1 c hc)
      · by_cases h2 : key = k
        · subst h2
          by_cases hv : v = 0#n
          · simpa [hv] using hs.2
          · simp only [Nat.lt_irrefl, hv, if_true, if_false, List.pairwise_cons]
            exact hs
        · simp only [h1, h2, if_false, List.pairwise_cons]
          refine ⟨fun c hc => ?_, ih hs.2⟩
          rcases mem_cellsWrite hc with hc | ⟨rfl, _⟩
          · exact hs.1 c hc
          · show k < key; omega
  · rcases mem_cellsWrite hc with hc | ⟨rfl, hv⟩
    · exact hb c hc
    · exact ⟨hk, hv⟩

/-- Writing a byte string leaves every byte outside it alone. -/
theorem cellsRead_writeBytes_other (m : List Host.Cell) (a : Nat) (bytes : List Byte) (x : Nat)
    (h : x < a ∨ a + bytes.length ≤ x) : cellsRead (writeBytes m a bytes) x = cellsRead m x := by
  induction bytes generalizing m a with
  | nil => rfl
  | cons b rest ih =>
    simp only [List.length_cons] at h
    rw [writeBytes, ih _ _ (by omega), cellsRead_write_other _ _ _ _ (by omega)]

/-- Writing a byte string inside DMEM keeps the canonical form. -/
theorem writeBytes_wf (bound : Nat) (m : List Host.Cell) (a : Nat) (bytes : List Byte)
    (ha : a + bytes.length ≤ bound) (h : Cells.wf bound m) : Cells.wf bound (writeBytes m a bytes) := by
  induction bytes generalizing m a with
  | nil => exact h
  | cons b rest ih =>
    simp only [List.length_cons] at ha
    exact ih _ _ (by omega) (cellsWrite_wf bound m a b (by omega) h)

/-- In canonical memory, a written byte string reads back. -/
theorem readBytes_writeBytes (bound : Nat) (m : List Host.Cell) (a : Nat) (bytes : List Byte)
    (ha : a + bytes.length ≤ bound) (h : Cells.wf bound m) :
    readBytes (writeBytes m a bytes) a bytes.length = bytes := by
  induction bytes generalizing m a with
  | nil => rfl
  | cons b rest ih =>
    simp only [List.length_cons] at ha
    have hw := cellsWrite_wf bound m a b (by omega) h
    rw [List.length_cons, readBytes, writeBytes, ih _ _ (by omega) hw]
    rw [cellsRead_writeBytes_other _ _ _ _ (by omega), cellsRead_write_same _ _ _ h.1]

/-- A store that answers keeps the canonical form of DMEM. -/
theorem memWrite_wf {s u : State} {addr : Word} {v : List Byte} (h : memWrite s addr v = .ok u)
    (hs : Memory.wf s.dmem) : Memory.wf u.dmem := by
  rcases memWrite_cases s addr v with ⟨hr, e⟩ | ⟨_, e⟩
  · rw [e] at h; cases h
    rcases hr with rfl | hr
    · exact hs
    · exact writeBytes_wf _ _ _ _ hr hs
  · rw [e] at h; cases h

/-- Placing a word keeps the canonical form of IMEM. -/
theorem placeWord_wf (s : State) (w : Word) (h : Cells.wf Config.imemWords s.imem) :
    Cells.wf Config.imemWords (placeWord s w).imem := by
  simp only [placeWord]
  refine cellsWrite_wf _ _ _ _ ?_ h
  split
  · assumption
  · simp [Config.imemWords]

/-- Every host write keeps the canonical form of both memories. -/
theorem hostWrite_wf (s : State) (off : Nat) (v : Word)
    (hd : Memory.wf s.dmem) (hi : Cells.wf Config.imemWords s.imem) :
    Memory.wf (hostWrite s off v).dmem ∧ Cells.wf Config.imemWords (hostWrite s off v).imem := by
  unfold hostWrite
  by_cases h4 : off % 4 ≠ 0
  · rw [if_pos h4]; exact ⟨hd, hi⟩
  rw [if_neg h4]
  by_cases hb : s.status = .busy
  · by_cases h1 : inImem off = true
    · rw [if_pos h1, if_pos hb]; exact ⟨hd, hi⟩
    rw [if_neg h1]
    by_cases h2 : inDmem off = true
    · rw [if_pos h2, if_pos hb]; exact ⟨hd, hi⟩
    rw [if_neg h2]
    unfold writeHostReg
    split <;> first | exact ⟨hd, hi⟩ | (rw [if_pos hb]; exact ⟨hd, hi⟩)
  · by_cases h1 : inImem off = true
    · rw [if_pos h1, if_neg hb]
      refine ⟨hd, cellsWrite_wf _ _ _ _ ?_ hi⟩
      simp only [inImem, Bool.and_eq_true, decide_eq_true_eq] at h1
      omega
    rw [if_neg h1]
    by_cases h2 : inDmem off = true
    · rw [if_pos h2, if_neg hb]
      refine ⟨writeBytes_wf _ _ _ _ ?_ hd, hi⟩
      simp only [inDmem, Bool.and_eq_true, decide_eq_true_eq] at h2
      simp only [dmemImage, Config.dmemBytes] at h2
      simp only [i2osp_length, dmemImage, Config.dmemBytes]
      omega
    rw [if_neg h2]
    unfold writeHostReg
    split
    · rw [if_neg hb]; split <;> exact ⟨hd, hi⟩
    · rw [if_neg hb]; exact ⟨hd, hi⟩
    all_goals exact ⟨hd, hi⟩

/-- The memories after reset are in canonical form. -/
theorem reset_wf : Memory.wf State.reset.dmem ∧ Cells.wf Config.imemWords State.reset.imem := by
  simp [State.reset, Memory.wf, Cells.wf]

end Sys2Proof.Machine
end

