-- ==== Sys2Proof/Laws/Frames.lean ====
section
/-! SUPPORT. What the terms of Safety.lean follow from: an instruction whose meaning ends in one write, or one store,
changes that register, or those bytes, and nothing else. A statement about an instruction needs these and the value
its meaning writes, and unfolds no record update. -/

namespace Sys2Proof.Machine

open Sys2Proof

@[simp] theorem traps_iff (i : Instr) (s : State) (c : Cause) (info : Word) :
    Traps i s c info ↔ exec i s = .next (takeException s ⟨c, info⟩) := Iff.rfl

/-- A meaning that raises takes the exception. -/
theorem traps_of_retire {i : Instr} {s : State} {c : Cause} {info : Word}
    (h : exec i s = retire s (.error ⟨c, info⟩)) : Traps i s c info := h

theorem sameControl_refl (s : State) : SameControl s s := ⟨rfl, rfl, rfl, rfl, rfl, rfl, rfl, rfl⟩

/-- A state that differs in `pc` only satisfies the same frames. -/
theorem Frame.setPc {w : Writes} {s u : State} (h : Frame w s u) (n : Word) : Frame w s (setPc u n) :=
  ⟨h.r, h.f, h.q, h.s, h.t, h.g, h.h, h.k, h.dmem,
    ⟨h.control.imem, h.control.startPc, h.control.intrEnable, h.control.intrState, h.control.status,
      h.control.ecause, h.control.epc, h.control.einfo⟩⟩

/-- An instruction whose meaning ends in the state `u`, with only what `w` lists changed. -/
theorem runs_of_retire {i : Instr} {s u : State} {w : Writes} {post : State → Prop}
    (h : exec i s = retire s (.ok u)) (tag : u.dstBuf = s.dstBuf) (frame : Frame w s u)
    (hp : post (Sys2Proof.Machine.setPc u (s.pc + 1))) : Runs i s w post :=
  ⟨_, h, rfl, tag, frame.setPc _, hp⟩

theorem frame_refl (w : Writes) (s : State) : Frame w s s :=
  ⟨fun _ _ => rfl, fun _ _ => rfl, fun _ _ => rfl, fun _ _ => rfl, fun _ _ => rfl, fun _ _ => rfl, fun _ _ => rfl,
    fun _ _ => rfl, fun _ _ => rfl, ⟨rfl, rfl, rfl, rfl, rfl, rfl, rfl, rfl⟩⟩

theorem frame_writeR (s : State) (a : RegIdx) (v : Word) : Frame { r := [a] } s (writeR s a v) :=
  ⟨fun j hj => readR_writeR_other _ _ _ _ (by simpa using hj),
    fun j _ => readF_writeR _ _ _ _,
    fun j _ => readQ_writeR _ _ _ _,
    fun j _ => readS_writeR _ _ _ _,
    fun j _ => readT_writeR _ _ _ _,
    fun j _ => readG_writeR _ _ _ _,
    fun j _ => readH_writeR _ _ _ _,
    fun j _ => readK_writeR _ _ _ _,
    fun _ _ => by simp, ⟨by simp, by simp, by simp, by simp, by simp, by simp, by simp, by simp⟩⟩

theorem frame_writeF (s : State) (a : RegIdx) (v : Fp) : Frame { f := [a] } s (writeF s a v) :=
  ⟨fun j _ => readR_writeF _ _ _ _,
    fun j hj => readF_writeF_other _ _ _ _ (by simpa using hj),
    fun j _ => readQ_writeF _ _ _ _,
    fun j _ => readS_writeF _ _ _ _,
    fun j _ => readT_writeF _ _ _ _,
    fun j _ => readG_writeF _ _ _ _,
    fun j _ => readH_writeF _ _ _ _,
    fun j _ => readK_writeF _ _ _ _,
    fun _ _ => rfl, ⟨rfl, rfl, rfl, rfl, rfl, rfl, rfl, rfl⟩⟩

theorem frame_writeQ (s : State) (a : RegIdx) (v : Fp2) : Frame { q := [a] } s (writeQ s a v) :=
  ⟨fun j _ => readR_writeQ _ _ _ _,
    fun j _ => readF_writeQ _ _ _ _,
    fun j hj => readQ_writeQ_other _ _ _ _ (by simpa using hj),
    fun j _ => readS_writeQ _ _ _ _,
    fun j _ => readT_writeQ _ _ _ _,
    fun j _ => readG_writeQ _ _ _ _,
    fun j _ => readH_writeQ _ _ _ _,
    fun j _ => readK_writeQ _ _ _ _,
    fun _ _ => rfl, ⟨rfl, rfl, rfl, rfl, rfl, rfl, rfl, rfl⟩⟩

theorem frame_writeS (s : State) (a : RegIdx) (v : Fp6) : Frame { s := [a] } s (writeS s a v) :=
  ⟨fun j _ => readR_writeS _ _ _ _,
    fun j _ => readF_writeS _ _ _ _,
    fun j _ => readQ_writeS _ _ _ _,
    fun j hj => readS_writeS_other _ _ _ _ (by simpa using hj),
    fun j _ => readT_writeS _ _ _ _,
    fun j _ => readG_writeS _ _ _ _,
    fun j _ => readH_writeS _ _ _ _,
    fun j _ => readK_writeS _ _ _ _,
    fun _ _ => rfl, ⟨rfl, rfl, rfl, rfl, rfl, rfl, rfl, rfl⟩⟩

theorem frame_writeT (s : State) (a : RegIdx) (v : Fp12) : Frame { t := [a] } s (writeT s a v) :=
  ⟨fun j _ => readR_writeT _ _ _ _,
    fun j _ => readF_writeT _ _ _ _,
    fun j _ => readQ_writeT _ _ _ _,
    fun j _ => readS_writeT _ _ _ _,
    fun j hj => readT_writeT_other _ _ _ _ (by simpa using hj),
    fun j _ => readG_writeT _ _ _ _,
    fun j _ => readH_writeT _ _ _ _,
    fun j _ => readK_writeT _ _ _ _,
    fun _ _ => rfl, ⟨rfl, rfl, rfl, rfl, rfl, rfl, rfl, rfl⟩⟩

theorem frame_writeG (s : State) (a : RegIdx) (v : Point Fp) : Frame { g := [a] } s (writeG s a v) :=
  ⟨fun j _ => readR_writeG _ _ _ _,
    fun j _ => readF_writeG _ _ _ _,
    fun j _ => readQ_writeG _ _ _ _,
    fun j _ => readS_writeG _ _ _ _,
    fun j _ => readT_writeG _ _ _ _,
    fun j hj => readG_writeG_other _ _ _ _ (by simpa using hj),
    fun j _ => readH_writeG _ _ _ _,
    fun j _ => readK_writeG _ _ _ _,
    fun _ _ => rfl, ⟨rfl, rfl, rfl, rfl, rfl, rfl, rfl, rfl⟩⟩

theorem frame_writeH (s : State) (a : RegIdx) (v : Point Fp2) : Frame { h := [a] } s (writeH s a v) :=
  ⟨fun j _ => readR_writeH _ _ _ _,
    fun j _ => readF_writeH _ _ _ _,
    fun j _ => readQ_writeH _ _ _ _,
    fun j _ => readS_writeH _ _ _ _,
    fun j _ => readT_writeH _ _ _ _,
    fun j _ => readG_writeH _ _ _ _,
    fun j hj => readH_writeH_other _ _ _ _ (by simpa using hj),
    fun j _ => readK_writeH _ _ _ _,
    fun _ _ => rfl, ⟨rfl, rfl, rfl, rfl, rfl, rfl, rfl, rfl⟩⟩

theorem frame_writeK (s : State) (a : RegIdx) (v : Scalar) : Frame { k := [a] } s (writeK s a v) :=
  ⟨fun j _ => readR_writeK _ _ _ _,
    fun j _ => readF_writeK _ _ _ _,
    fun j _ => readQ_writeK _ _ _ _,
    fun j _ => readS_writeK _ _ _ _,
    fun j _ => readT_writeK _ _ _ _,
    fun j _ => readG_writeK _ _ _ _,
    fun j _ => readH_writeK _ _ _ _,
    fun j hj => readK_writeK_other _ _ _ _ (by simpa using hj),
    fun _ _ => rfl, ⟨rfl, rfl, rfl, rfl, rfl, rfl, rfl, rfl⟩⟩

/-- One write to `r[a]`. -/
theorem runs_writeR {i : Instr} {s : State} {a : RegIdx} {v : Word} {post : State → Prop}
    (h : exec i s = retire s (.ok (writeR s a v))) (hp : ∀ u, readR u a = asWritten a v → post u) :
    Runs i s { r := [a] } post :=
  runs_of_retire h (by simp) (frame_writeR s a v) (hp _ (by simp))

/-- One write to `f[a]`. -/
theorem runs_writeF {i : Instr} {s : State} {a : RegIdx} {v : Fp} {post : State → Prop}
    (h : exec i s = retire s (.ok (writeF s a v))) (hp : ∀ u, readF u a = v → post u) :
    Runs i s { f := [a] } post :=
  runs_of_retire h rfl (frame_writeF s a v) (hp _ (by simp))

/-- One write to `q[a]`. -/
theorem runs_writeQ {i : Instr} {s : State} {a : RegIdx} {v : Fp2} {post : State → Prop}
    (h : exec i s = retire s (.ok (writeQ s a v))) (hp : ∀ u, readQ u a = v → post u) :
    Runs i s { q := [a] } post :=
  runs_of_retire h rfl (frame_writeQ s a v) (hp _ (by simp))

/-- One write to `s[a]`. -/
theorem runs_writeS {i : Instr} {s : State} {a : RegIdx} {v : Fp6} {post : State → Prop}
    (h : exec i s = retire s (.ok (writeS s a v))) (hp : ∀ u, readS u a = v → post u) :
    Runs i s { s := [a] } post :=
  runs_of_retire h rfl (frame_writeS s a v) (hp _ (by simp))

/-- One write to `t[a]`. -/
theorem runs_writeT {i : Instr} {s : State} {a : RegIdx} {v : Fp12} {post : State → Prop}
    (h : exec i s = retire s (.ok (writeT s a v))) (hp : ∀ u, readT u a = v → post u) :
    Runs i s { t := [a] } post :=
  runs_of_retire h rfl (frame_writeT s a v) (hp _ (by simp))

/-- One write to `g[a]`. -/
theorem runs_writeG {i : Instr} {s : State} {a : RegIdx} {v : Point Fp} {post : State → Prop}
    (h : exec i s = retire s (.ok (writeG s a v))) (hp : ∀ u, readG u a = v → post u) :
    Runs i s { g := [a] } post :=
  runs_of_retire h rfl (frame_writeG s a v) (hp _ (by simp))

/-- One write to `h[a]`. -/
theorem runs_writeH {i : Instr} {s : State} {a : RegIdx} {v : Point Fp2} {post : State → Prop}
    (h : exec i s = retire s (.ok (writeH s a v))) (hp : ∀ u, readH u a = v → post u) :
    Runs i s { h := [a] } post :=
  runs_of_retire h rfl (frame_writeH s a v) (hp _ (by simp))

/-- One write to `k[a]`. -/
theorem runs_writeK {i : Instr} {s : State} {a : RegIdx} {v : Scalar} {post : State → Prop}
    (h : exec i s = retire s (.ok (writeK s a v))) (hp : ∀ u, readK u a = v → post u) :
    Runs i s { k := [a] } post :=
  runs_of_retire h rfl (frame_writeK s a v) (hp _ (by simp))

/-- The negative as a relation is the function of R304. -/
theorem negatesTo_iff {F : Type} (ops : FieldOps F) (a b : Point F) : NegatesTo ops a b ↔ b = ptNeg ops a := by
  cases a <;> exact Iff.rfl

theorem oncurve_iff (a : Point Fp) : oncurve a = true ↔ OnCurve1 a := by
  cases a with
  | O => simp [oncurve, OnCurve1]
  | aff x y =>
    simp only [oncurve, OnCurve1, decide_eq_true_eq, Fin.ext_iff]
    simp [fmul, curveRhs, fadd, toFp, b1, Nat.add_mod, Nat.mul_mod]

theorem oncurve2_iff (a : Point Fp2) : oncurve2 a = true ↔ OnCurve2 a := by
  cases a with
  | O => simp [oncurve2, OnCurve2]
  | aff x y =>
    show decide (qMul y y = curveRhs2 x) = true ↔ qMul y y = curveRhs2 x
    exact decide_eq_true_iff

theorem insub1_iff (a : Point Fp) : insub1 a = true ↔ InSubgroup1 a := by
  cases a with
  | O => simp [insub1, InSubgroup1]
  | aff x y => simp [insub1, InSubgroup1, negatesTo_iff, eq_comm]

theorem insub2_iff (a : Point Fp2) : insub2 a = true ↔ InSubgroup2 a := by
  cases a with
  | O => simp [insub2, InSubgroup2]
  | aff x y => simp [insub2, InSubgroup2, negatesTo_iff, mulX2, eq_comm]

/-- One boolean outcome in `r[a]` (spec/10_state.md R33). -/
theorem answers_boolWord {u : State} {a : RegIdx} {b : Bool} {c : Prop} (hb : b = true ↔ c)
    (h : readR u a = asWritten a (boolWord b)) : Answers u a c := by
  constructor
  · intro hc; rw [h, hb.2 hc]; rfl
  · intro hc
    have : b = false := by simpa using fun e => hc (hb.1 e)
    rw [h, this]; rfl

theorem fits_iff (addr : Word) (n : Nat) (h : Fits addr n) (s : State) :
    memRead s addr n = .ok (bytesAt s addr n) := by
  rcases memRead_cases s addr n with ⟨_, e⟩ | ⟨⟨h0, h1⟩, _⟩
  · exact e
  · rcases h with h | h <;> omega

theorem not_fits (addr : Word) (n : Nat) (h : ¬Fits addr n) (s : State) :
    memRead s addr n = .error ⟨.dmemRange, addr⟩ := by
  rcases memRead_cases s addr n with ⟨h', _⟩ | ⟨_, e⟩
  · exact absurd h' h
  · exact e

/-- One store, where it fits. -/
theorem runs_store {i : Instr} {s : State} {addr : Word} {bytes : List Byte} {post : State → Prop}
    (h : exec i s = retire s (memWrite s addr bytes)) (hf : Fits addr bytes.length) (hm : Memory.wf s.dmem)
    (hp : ∀ u, bytesAt u addr bytes.length = bytes → post u) :
    Runs i s { memAt := addr.toNat, memLen := bytes.length } post := by
  rcases memWrite_cases s addr bytes with ⟨_, e⟩ | ⟨⟨h0, h1⟩, _⟩
  · rw [e] at h
    refine runs_of_retire h rfl ⟨fun _ _ => rfl, fun _ _ => rfl, fun _ _ => rfl, fun _ _ => rfl, fun _ _ => rfl,
      fun _ _ => rfl, fun _ _ => rfl, fun _ _ => rfl,
      fun x hx => cellsRead_writeBytes_other _ _ _ _ hx, ⟨rfl, rfl, rfl, rfl, rfl, rfl, rfl, rfl⟩⟩ (hp _ ?_)
    rcases hf with hf | hf
    · have : bytes = [] := List.length_eq_zero_iff.1 hf
      subst this; rfl
    · exact readBytes_writeBytes _ _ _ _ hf hm
  · rcases hf with hf | hf
    · exact absurd (List.length_eq_zero_iff.1 hf) h0
    · omega

/-- One store, where it does not fit. -/
theorem traps_store {i : Instr} {s : State} {addr : Word} {bytes : List Byte}
    (h : exec i s = retire s (memWrite s addr bytes)) (hf : ¬Fits addr bytes.length) :
    Traps i s .dmemRange addr := by
  rcases memWrite_cases s addr bytes with ⟨h', _⟩ | ⟨_, e⟩
  · exact absurd (h'.imp_left (by rintro rfl; rfl)) hf
  · rw [e] at h; exact h

end Sys2Proof.Machine
end

