-- ==== Sys2Proof/Laws/Hash.lean ====
section
/-! SUPPORT. The lengths of what the hash functions answer (spec/00_scope.md R27, spec/48_hash_to_curve.md R421). -/

namespace Sys2Proof.Machine

open Sys2Proof

@[simp] theorem shaStart_length : shaStart.length = 8 := by decide +kernel

@[simp] theorem roundStep_length (v : List Word) (kw : Word) (h : v.length = 8) : (roundStep v kw).length = 8 := by
  simp [roundStep, h]

theorem foldl_roundStep_length (kws v : List Word) (h : v.length = 8) : (kws.foldl roundStep v).length = 8 := by
  induction kws generalizing v with
  | nil => exact h
  | cons kw kws ih => exact ih _ (roundStep_length v kw h)

theorem shaCompress_length (chain : List Word) (block : List Byte) (h : chain.length = 8) :
    (shaCompress chain block).length = 8 := by
  simp [shaCompress, foldl_roundStep_length _ _ h, h]

/-- A digest has 32 bytes (R27). -/
theorem sha256_length (m : List Byte) : (sha256 m).length = 32 := by
  have hfold : ∀ (block : Nat → List Byte) (is : List Nat) (chain : List Word), chain.length = 8 →
      (is.foldl (fun c i => shaCompress c (block i)) chain).length = 8 := by
    intro block is
    induction is with
    | nil => exact fun _ h => h
    | cons i is ih => exact fun c h => ih _ (shaCompress_length c _ h)
  simp [sha256, List.length_flatMap, hfold (fun i => ((shaPad m).drop (64 * i)).take 64)]

theorem xmdBlocks_length (sha : List Byte → List Byte) (hsha : ∀ m, (sha m).length = 32) (m' dst' : List Byte)
    (n i : Nat) (prev : List Byte) : (xmdBlocks sha m' dst' n i prev).length = 32 * n := by
  induction n generalizing i prev with
  | zero => rfl
  | succ n ih => simp only [xmdBlocks, List.length_append, hsha, ih]; omega

/-- The expander answers as many bytes as it is asked for (R421). -/
theorem xmd_length (sha : List Byte → List Byte) (hsha : ∀ m, (sha m).length = 32) (msg dst : List Byte) (len : Nat) :
    (xmd sha msg dst len).length = len := by
  simp only [xmd, List.length_take, List.length_append, hsha, xmdBlocks_length sha hsha]
  omega

end Sys2Proof.Machine
end

