-- ==== Sys2Proof/Laws/PerInstr.lean ====
section
/-! SUPPORT. Per instruction: the word of the instruction belongs to a row of the opcode map, by that row's mask and
match (spec/30_encoding.md R112). -/

namespace Sys2Proof

/-- A field kept or cleared by a mask. -/
def sel (keep : Bool) (x : RegIdx) : RegIdx := if keep then x else 0

theorem and_sel (x : RegIdx) (keep : Bool) :
    BitVec.ofFin (w := 4) x &&& BitVec.ofFin (w := 4) (sel keep 15) = BitVec.ofFin (w := 4) (sel keep x) := by
  revert x keep; decide

/-- A word of format R under a mask made of whole fields. -/
theorem encR_mask (op : Nat) (a b c d e n : RegIdx) (ka kb kc kd ke kn : Bool) (mask pat : Word)
    (hm : mask = encR 0xFF (sel ka 15) (sel kb 15) (sel kc 15) (sel kd 15) (sel ke 15) (sel kn 15))
    (hp : pat = encR op (sel ka a) (sel kb b) (sel kc c) (sel kd d) (sel ke e) (sel kn n)) :
    encR op a b c d e n &&& mask = pat := by
  have h8 : BitVec.ofNat 8 op &&& BitVec.ofNat 8 0xFF = BitVec.ofNat 8 op := BitVec.and_allOnes
  have key : ∀ x0 y0 : BitVec 8, ∀ x1 x2 x3 x4 x5 x6 y1 y2 y3 y4 y5 y6 : BitVec 4,
      (x0 ++ x1 ++ x2 ++ x3 ++ x4 ++ x5 ++ x6) &&& (y0 ++ y1 ++ y2 ++ y3 ++ y4 ++ y5 ++ y6) =
        (x0 &&& y0) ++ (x1 &&& y1) ++ (x2 &&& y2) ++ (x3 &&& y3) ++ (x4 &&& y4) ++ (x5 &&& y5) ++
          (x6 &&& y6) := by
    intros; simp only [BitVec.and_append]
  have h := key (BitVec.ofNat 8 op) (BitVec.ofNat 8 0xFF) (.ofFin a) (.ofFin b) (.ofFin c) (.ofFin d) (.ofFin e)
    (.ofFin n) (.ofFin (sel ka 15)) (.ofFin (sel kb 15)) (.ofFin (sel kc 15)) (.ofFin (sel kd 15))
    (.ofFin (sel ke 15)) (.ofFin (sel kn 15))
  simp only [and_sel, h8] at h
  rw [hm, hp]
  exact h

/-- A word of format I under a mask that ignores `imm16`. -/
theorem encI_mask (op : Nat) (a b : RegIdx) (imm : BitVec 16) (ka kb : Bool) (mask pat : Word)
    (hm : mask = encI 0xFF (sel ka 15) (sel kb 15) 0) (hp : pat = encI op (sel ka a) (sel kb b) 0) :
    encI op a b imm &&& mask = pat := by
  have h8 : BitVec.ofNat 8 op &&& BitVec.ofNat 8 0xFF = BitVec.ofNat 8 op := BitVec.and_allOnes
  have key : ∀ x0 y0 : BitVec 8, ∀ x1 x2 y1 y2 : BitVec 4, ∀ x3 y3 : BitVec 16,
      (x0 ++ x1 ++ x2 ++ x3) &&& (y0 ++ y1 ++ y2 ++ y3) =
        (x0 &&& y0) ++ (x1 &&& y1) ++ (x2 &&& y2) ++ (x3 &&& y3) := by
    intros; simp only [BitVec.and_append]
  have h := key (BitVec.ofNat 8 op) (BitVec.ofNat 8 0xFF) (.ofFin a) (.ofFin b) (.ofFin (sel ka 15))
    (.ofFin (sel kb 15)) imm 0#16
  simp only [and_sel, h8, show imm &&& 0#16 = 0#16 from BitVec.and_zero] at h
  rw [hm, hp]
  exact h

/-- The word of `i` is the instruction of some row (spec/30_encoding.md R112). -/
def Laws.RowMatch.Statement (i : Instr) : Prop :=
  ∃ row ∈ opcodeTable, encode i &&& row.1 = row.2

theorem mem_rowsControl {row : Word × Word} (h : row ∈ rowsControl) : row ∈ opcodeTable := by
  simp only [opcodeTable, List.mem_append]; tauto

theorem mem_rowsInteger {row : Word × Word} (h : row ∈ rowsInteger) : row ∈ opcodeTable := by
  simp only [opcodeTable, List.mem_append]; tauto

theorem mem_rowsFp {row : Word × Word} (h : row ∈ rowsFp) : row ∈ opcodeTable := by
  simp only [opcodeTable, List.mem_append]; tauto

theorem mem_rowsFp2 {row : Word × Word} (h : row ∈ rowsFp2) : row ∈ opcodeTable := by
  simp only [opcodeTable, List.mem_append]; tauto

theorem mem_rowsFp6 {row : Word × Word} (h : row ∈ rowsFp6) : row ∈ opcodeTable := by
  simp only [opcodeTable, List.mem_append]; tauto

theorem mem_rowsFp12 {row : Word × Word} (h : row ∈ rowsFp12) : row ∈ opcodeTable := by
  simp only [opcodeTable, List.mem_append]; tauto

theorem mem_rowsG1 {row : Word × Word} (h : row ∈ rowsG1) : row ∈ opcodeTable := by
  simp only [opcodeTable, List.mem_append]; tauto

theorem mem_rowsG2 {row : Word × Word} (h : row ∈ rowsG2) : row ∈ opcodeTable := by
  simp only [opcodeTable, List.mem_append]; tauto

theorem mem_rowsPairing {row : Word × Word} (h : row ∈ rowsPairing) : row ∈ opcodeTable := by
  simp only [opcodeTable, List.mem_append]; tauto

theorem mem_rowsHashToCurve {row : Word × Word} (h : row ∈ rowsHashToCurve) : row ∈ opcodeTable := by
  simp only [opcodeTable, List.mem_append]; tauto

theorem mem_rowsBls {row : Word × Word} (h : row ∈ rowsBls) : row ∈ opcodeTable := by
  simp only [opcodeTable, List.mem_append]; tauto

theorem mem_rowsScalar {row : Word × Word} (h : row ∈ rowsScalar) : row ∈ opcodeTable := by
  simp only [opcodeTable, List.mem_append]; tauto

theorem mem_rowsPointMemory {row : Word × Word} (h : row ∈ rowsPointMemory) : row ∈ opcodeTable := by
  simp only [opcodeTable, List.mem_append]; tauto

theorem Laws.RowMatch.halt :
    Laws.RowMatch.Statement .halt :=
  have hm : ((0xFFFFFFFF, 0x01000000) : Word × Word) ∈ rowsControl := by decide
  ⟨_, mem_rowsControl hm, encR_mask _ _ _ _ _ _ _ true true true true true true _ _ (by decide)
      (by change _ = encR 1 0 0 0 0 0 0; decide)⟩

theorem Laws.RowMatch.nop :
    Laws.RowMatch.Statement .nop :=
  have hm : ((0xFFFFFFFF, 0x02000000) : Word × Word) ∈ rowsControl := by decide
  ⟨_, mem_rowsControl hm, encR_mask _ _ _ _ _ _ _ true true true true true true _ _ (by decide)
      (by change _ = encR 2 0 0 0 0 0 0; decide)⟩

theorem Laws.RowMatch.fail (imm : BitVec 16) :
    Laws.RowMatch.Statement (.fail imm) :=
  have hm : ((0xFFFF0000, 0x03000000) : Word × Word) ∈ rowsControl := by decide
  ⟨_, mem_rowsControl hm, encI_mask _ _ _ _ true true _ _ (by decide)
      (by change _ = encI 3 0 0 0; decide)⟩

theorem Laws.RowMatch.jal (a : RegIdx) (imm : BitVec 16) :
    Laws.RowMatch.Statement (.jal a imm) :=
  have hm : ((0xFF0F0000, 0x04000000) : Word × Word) ∈ rowsControl := by decide
  ⟨_, mem_rowsControl hm, encI_mask _ _ _ _ false true _ _ (by decide)
      (by change _ = encI 4 0 0 0; decide)⟩

theorem Laws.RowMatch.jalr (a b : RegIdx) :
    Laws.RowMatch.Statement (.jalr a b) :=
  have hm : ((0xFF00FFFF, 0x05000000) : Word × Word) ∈ rowsControl := by decide
  ⟨_, mem_rowsControl hm, encR_mask _ _ _ _ _ _ _ false false true true true true _ _ (by decide)
      (by change _ = encR 5 0 0 0 0 0 0; decide)⟩

theorem Laws.RowMatch.beq (a b : RegIdx) (imm : BitVec 16) :
    Laws.RowMatch.Statement (.beq a b imm) :=
  have hm : ((0xFF000000, 0x06000000) : Word × Word) ∈ rowsControl := by decide
  ⟨_, mem_rowsControl hm, encI_mask _ _ _ _ false false _ _ (by decide)
      (by change _ = encI 6 0 0 0; decide)⟩

theorem Laws.RowMatch.bne (a b : RegIdx) (imm : BitVec 16) :
    Laws.RowMatch.Statement (.bne a b imm) :=
  have hm : ((0xFF000000, 0x07000000) : Word × Word) ∈ rowsControl := by decide
  ⟨_, mem_rowsControl hm, encI_mask _ _ _ _ false false _ _ (by decide)
      (by change _ = encI 7 0 0 0; decide)⟩

theorem Laws.RowMatch.bltu (a b : RegIdx) (imm : BitVec 16) :
    Laws.RowMatch.Statement (.bltu a b imm) :=
  have hm : ((0xFF000000, 0x08000000) : Word × Word) ∈ rowsControl := by decide
  ⟨_, mem_rowsControl hm, encI_mask _ _ _ _ false false _ _ (by decide)
      (by change _ = encI 8 0 0 0; decide)⟩

theorem Laws.RowMatch.li (a : RegIdx) (imm : BitVec 16) :
    Laws.RowMatch.Statement (.li a imm) :=
  have hm : ((0xFF0F0000, 0x10000000) : Word × Word) ∈ rowsInteger := by decide
  ⟨_, mem_rowsInteger hm, encI_mask _ _ _ _ false true _ _ (by decide)
      (by change _ = encI 16 0 0 0; decide)⟩

theorem Laws.RowMatch.lui (a : RegIdx) (imm : BitVec 16) :
    Laws.RowMatch.Statement (.lui a imm) :=
  have hm : ((0xFF0F0000, 0x11000000) : Word × Word) ∈ rowsInteger := by decide
  ⟨_, mem_rowsInteger hm, encI_mask _ _ _ _ false true _ _ (by decide)
      (by change _ = encI 17 0 0 0; decide)⟩

theorem Laws.RowMatch.addi (a b : RegIdx) (imm : BitVec 16) :
    Laws.RowMatch.Statement (.addi a b imm) :=
  have hm : ((0xFF000000, 0x12000000) : Word × Word) ∈ rowsInteger := by decide
  ⟨_, mem_rowsInteger hm, encI_mask _ _ _ _ false false _ _ (by decide)
      (by change _ = encI 18 0 0 0; decide)⟩

theorem Laws.RowMatch.add (a b c : RegIdx) :
    Laws.RowMatch.Statement (.add a b c) :=
  have hm : ((0xFF000FFF, 0x13000000) : Word × Word) ∈ rowsInteger := by decide
  ⟨_, mem_rowsInteger hm, encR_mask _ _ _ _ _ _ _ false false false true true true _ _ (by decide)
      (by change _ = encR 19 0 0 0 0 0 0; decide)⟩

theorem Laws.RowMatch.sub (a b c : RegIdx) :
    Laws.RowMatch.Statement (.sub a b c) :=
  have hm : ((0xFF000FFF, 0x14000000) : Word × Word) ∈ rowsInteger := by decide
  ⟨_, mem_rowsInteger hm, encR_mask _ _ _ _ _ _ _ false false false true true true _ _ (by decide)
      (by change _ = encR 20 0 0 0 0 0 0; decide)⟩

theorem Laws.RowMatch.and (a b c : RegIdx) :
    Laws.RowMatch.Statement (.and a b c) :=
  have hm : ((0xFF000FFF, 0x15000000) : Word × Word) ∈ rowsInteger := by decide
  ⟨_, mem_rowsInteger hm, encR_mask _ _ _ _ _ _ _ false false false true true true _ _ (by decide)
      (by change _ = encR 21 0 0 0 0 0 0; decide)⟩

theorem Laws.RowMatch.or (a b c : RegIdx) :
    Laws.RowMatch.Statement (.or a b c) :=
  have hm : ((0xFF000FFF, 0x16000000) : Word × Word) ∈ rowsInteger := by decide
  ⟨_, mem_rowsInteger hm, encR_mask _ _ _ _ _ _ _ false false false true true true _ _ (by decide)
      (by change _ = encR 22 0 0 0 0 0 0; decide)⟩

theorem Laws.RowMatch.xor (a b c : RegIdx) :
    Laws.RowMatch.Statement (.xor a b c) :=
  have hm : ((0xFF000FFF, 0x17000000) : Word × Word) ∈ rowsInteger := by decide
  ⟨_, mem_rowsInteger hm, encR_mask _ _ _ _ _ _ _ false false false true true true _ _ (by decide)
      (by change _ = encR 23 0 0 0 0 0 0; decide)⟩

theorem Laws.RowMatch.lw (a b : RegIdx) (imm : BitVec 16) :
    Laws.RowMatch.Statement (.lw a b imm) :=
  have hm : ((0xFF000000, 0x18000000) : Word × Word) ∈ rowsInteger := by decide
  ⟨_, mem_rowsInteger hm, encI_mask _ _ _ _ false false _ _ (by decide)
      (by change _ = encI 24 0 0 0; decide)⟩

theorem Laws.RowMatch.sw (a b : RegIdx) (imm : BitVec 16) :
    Laws.RowMatch.Statement (.sw a b imm) :=
  have hm : ((0xFF000000, 0x19000000) : Word × Word) ∈ rowsInteger := by decide
  ⟨_, mem_rowsInteger hm, encI_mask _ _ _ _ false false _ _ (by decide)
      (by change _ = encI 25 0 0 0; decide)⟩

theorem Laws.RowMatch.lbu (a b : RegIdx) (imm : BitVec 16) :
    Laws.RowMatch.Statement (.lbu a b imm) :=
  have hm : ((0xFF000000, 0x1A000000) : Word × Word) ∈ rowsInteger := by decide
  ⟨_, mem_rowsInteger hm, encI_mask _ _ _ _ false false _ _ (by decide)
      (by change _ = encI 26 0 0 0; decide)⟩

theorem Laws.RowMatch.sb (a b : RegIdx) (imm : BitVec 16) :
    Laws.RowMatch.Statement (.sb a b imm) :=
  have hm : ((0xFF000000, 0x1B000000) : Word × Word) ∈ rowsInteger := by decide
  ⟨_, mem_rowsInteger hm, encI_mask _ _ _ _ false false _ _ (by decide)
      (by change _ = encI 27 0 0 0; decide)⟩

theorem Laws.RowMatch.fMov (a b : RegIdx) :
    Laws.RowMatch.Statement (.fMov a b) :=
  have hm : ((0xFF00FFFF, 0x20000000) : Word × Word) ∈ rowsFp := by decide
  ⟨_, mem_rowsFp hm, encR_mask _ _ _ _ _ _ _ false false true true true true _ _ (by decide)
      (by change _ = encR 32 0 0 0 0 0 0; decide)⟩

theorem Laws.RowMatch.fLi (a : RegIdx) (imm : BitVec 16) :
    Laws.RowMatch.Statement (.fLi a imm) :=
  have hm : ((0xFF0F0000, 0x21000000) : Word × Word) ∈ rowsFp := by decide
  ⟨_, mem_rowsFp hm, encI_mask _ _ _ _ false true _ _ (by decide)
      (by change _ = encI 33 0 0 0; decide)⟩

theorem Laws.RowMatch.fLd (a b : RegIdx) (imm : BitVec 16) :
    Laws.RowMatch.Statement (.fLd a b imm) :=
  have hm : ((0xFF000000, 0x22000000) : Word × Word) ∈ rowsFp := by decide
  ⟨_, mem_rowsFp hm, encI_mask _ _ _ _ false false _ _ (by decide)
      (by change _ = encI 34 0 0 0; decide)⟩

theorem Laws.RowMatch.fSt (a b : RegIdx) (imm : BitVec 16) :
    Laws.RowMatch.Statement (.fSt a b imm) :=
  have hm : ((0xFF000000, 0x23000000) : Word × Word) ∈ rowsFp := by decide
  ⟨_, mem_rowsFp hm, encI_mask _ _ _ _ false false _ _ (by decide)
      (by change _ = encI 35 0 0 0; decide)⟩

theorem Laws.RowMatch.fLdr (a b c : RegIdx) :
    Laws.RowMatch.Statement (.fLdr a b c) :=
  have hm : ((0xFF000FFF, 0x24000000) : Word × Word) ∈ rowsFp := by decide
  ⟨_, mem_rowsFp hm, encR_mask _ _ _ _ _ _ _ false false false true true true _ _ (by decide)
      (by change _ = encR 36 0 0 0 0 0 0; decide)⟩

theorem Laws.RowMatch.fAdd (a b c : RegIdx) :
    Laws.RowMatch.Statement (.fAdd a b c) :=
  have hm : ((0xFF000FFF, 0x25000000) : Word × Word) ∈ rowsFp := by decide
  ⟨_, mem_rowsFp hm, encR_mask _ _ _ _ _ _ _ false false false true true true _ _ (by decide)
      (by change _ = encR 37 0 0 0 0 0 0; decide)⟩

theorem Laws.RowMatch.fSub (a b c : RegIdx) :
    Laws.RowMatch.Statement (.fSub a b c) :=
  have hm : ((0xFF000FFF, 0x26000000) : Word × Word) ∈ rowsFp := by decide
  ⟨_, mem_rowsFp hm, encR_mask _ _ _ _ _ _ _ false false false true true true _ _ (by decide)
      (by change _ = encR 38 0 0 0 0 0 0; decide)⟩

theorem Laws.RowMatch.fNeg (a b : RegIdx) :
    Laws.RowMatch.Statement (.fNeg a b) :=
  have hm : ((0xFF00FFFF, 0x27000000) : Word × Word) ∈ rowsFp := by decide
  ⟨_, mem_rowsFp hm, encR_mask _ _ _ _ _ _ _ false false true true true true _ _ (by decide)
      (by change _ = encR 39 0 0 0 0 0 0; decide)⟩

theorem Laws.RowMatch.fMul (a b c : RegIdx) :
    Laws.RowMatch.Statement (.fMul a b c) :=
  have hm : ((0xFF000FFF, 0x28000000) : Word × Word) ∈ rowsFp := by decide
  ⟨_, mem_rowsFp hm, encR_mask _ _ _ _ _ _ _ false false false true true true _ _ (by decide)
      (by change _ = encR 40 0 0 0 0 0 0; decide)⟩

theorem Laws.RowMatch.fSqr (a b : RegIdx) :
    Laws.RowMatch.Statement (.fSqr a b) :=
  have hm : ((0xFF00FFFF, 0x29000000) : Word × Word) ∈ rowsFp := by decide
  ⟨_, mem_rowsFp hm, encR_mask _ _ _ _ _ _ _ false false true true true true _ _ (by decide)
      (by change _ = encR 41 0 0 0 0 0 0; decide)⟩

theorem Laws.RowMatch.fInv (a b : RegIdx) :
    Laws.RowMatch.Statement (.fInv a b) :=
  have hm : ((0xFF00FFFF, 0x2A000000) : Word × Word) ∈ rowsFp := by decide
  ⟨_, mem_rowsFp hm, encR_mask _ _ _ _ _ _ _ false false true true true true _ _ (by decide)
      (by change _ = encR 42 0 0 0 0 0 0; decide)⟩

theorem Laws.RowMatch.fDiv (a b c : RegIdx) :
    Laws.RowMatch.Statement (.fDiv a b c) :=
  have hm : ((0xFF000FFF, 0x2B000000) : Word × Word) ∈ rowsFp := by decide
  ⟨_, mem_rowsFp hm, encR_mask _ _ _ _ _ _ _ false false false true true true _ _ (by decide)
      (by change _ = encR 43 0 0 0 0 0 0; decide)⟩

theorem Laws.RowMatch.fPow (a b c : RegIdx) :
    Laws.RowMatch.Statement (.fPow a b c) :=
  have hm : ((0xFF000FFF, 0x2C000000) : Word × Word) ∈ rowsFp := by decide
  ⟨_, mem_rowsFp hm, encR_mask _ _ _ _ _ _ _ false false false true true true _ _ (by decide)
      (by change _ = encR 44 0 0 0 0 0 0; decide)⟩

theorem Laws.RowMatch.fSqrt (a b c : RegIdx) :
    Laws.RowMatch.Statement (.fSqrt a b c) :=
  have hm : ((0xFF000FFF, 0x2D000000) : Word × Word) ∈ rowsFp := by decide
  ⟨_, mem_rowsFp hm, encR_mask _ _ _ _ _ _ _ false false false true true true _ _ (by decide)
      (by change _ = encR 45 0 0 0 0 0 0; decide)⟩

theorem Laws.RowMatch.fEq (a b c : RegIdx) :
    Laws.RowMatch.Statement (.fEq a b c) :=
  have hm : ((0xFF000FFF, 0x2E000000) : Word × Word) ∈ rowsFp := by decide
  ⟨_, mem_rowsFp hm, encR_mask _ _ _ _ _ _ _ false false false true true true _ _ (by decide)
      (by change _ = encR 46 0 0 0 0 0 0; decide)⟩

theorem Laws.RowMatch.qMov (a b : RegIdx) :
    Laws.RowMatch.Statement (.qMov a b) :=
  have hm : ((0xFF00FFFF, 0x30000000) : Word × Word) ∈ rowsFp2 := by decide
  ⟨_, mem_rowsFp2 hm, encR_mask _ _ _ _ _ _ _ false false true true true true _ _ (by decide)
      (by change _ = encR 48 0 0 0 0 0 0; decide)⟩

theorem Laws.RowMatch.qPack (a b c : RegIdx) :
    Laws.RowMatch.Statement (.qPack a b c) :=
  have hm : ((0xFF000FFF, 0x31000000) : Word × Word) ∈ rowsFp2 := by decide
  ⟨_, mem_rowsFp2 hm, encR_mask _ _ _ _ _ _ _ false false false true true true _ _ (by decide)
      (by change _ = encR 49 0 0 0 0 0 0; decide)⟩

theorem Laws.RowMatch.qGet (a b : RegIdx) (n : BitVec 4) :
    Laws.RowMatch.Statement (.qGet a b n) :=
  have hm : ((0xFF00FFF0, 0x32000000) : Word × Word) ∈ rowsFp2 := by decide
  ⟨_, mem_rowsFp2 hm, encR_mask _ _ _ _ _ _ _ false false true true true false _ _ (by decide)
      (by change _ = encR 50 0 0 0 0 0 0; decide)⟩

theorem Laws.RowMatch.qFrob (a b : RegIdx) (n : BitVec 4) :
    Laws.RowMatch.Statement (.qFrob a b n) :=
  have hm : ((0xFF00FFF0, 0x33000000) : Word × Word) ∈ rowsFp2 := by decide
  ⟨_, mem_rowsFp2 hm, encR_mask _ _ _ _ _ _ _ false false true true true false _ _ (by decide)
      (by change _ = encR 51 0 0 0 0 0 0; decide)⟩

theorem Laws.RowMatch.qSgn0 (a b : RegIdx) :
    Laws.RowMatch.Statement (.qSgn0 a b) :=
  have hm : ((0xFF00FFFF, 0x34000000) : Word × Word) ∈ rowsFp2 := by decide
  ⟨_, mem_rowsFp2 hm, encR_mask _ _ _ _ _ _ _ false false true true true true _ _ (by decide)
      (by change _ = encR 52 0 0 0 0 0 0; decide)⟩

theorem Laws.RowMatch.qAdd (a b c : RegIdx) :
    Laws.RowMatch.Statement (.qAdd a b c) :=
  have hm : ((0xFF000FFF, 0x35000000) : Word × Word) ∈ rowsFp2 := by decide
  ⟨_, mem_rowsFp2 hm, encR_mask _ _ _ _ _ _ _ false false false true true true _ _ (by decide)
      (by change _ = encR 53 0 0 0 0 0 0; decide)⟩

theorem Laws.RowMatch.qSub (a b c : RegIdx) :
    Laws.RowMatch.Statement (.qSub a b c) :=
  have hm : ((0xFF000FFF, 0x36000000) : Word × Word) ∈ rowsFp2 := by decide
  ⟨_, mem_rowsFp2 hm, encR_mask _ _ _ _ _ _ _ false false false true true true _ _ (by decide)
      (by change _ = encR 54 0 0 0 0 0 0; decide)⟩

theorem Laws.RowMatch.qNeg (a b : RegIdx) :
    Laws.RowMatch.Statement (.qNeg a b) :=
  have hm : ((0xFF00FFFF, 0x37000000) : Word × Word) ∈ rowsFp2 := by decide
  ⟨_, mem_rowsFp2 hm, encR_mask _ _ _ _ _ _ _ false false true true true true _ _ (by decide)
      (by change _ = encR 55 0 0 0 0 0 0; decide)⟩

theorem Laws.RowMatch.qMul (a b c : RegIdx) :
    Laws.RowMatch.Statement (.qMul a b c) :=
  have hm : ((0xFF000FFF, 0x38000000) : Word × Word) ∈ rowsFp2 := by decide
  ⟨_, mem_rowsFp2 hm, encR_mask _ _ _ _ _ _ _ false false false true true true _ _ (by decide)
      (by change _ = encR 56 0 0 0 0 0 0; decide)⟩

theorem Laws.RowMatch.qSqr (a b : RegIdx) :
    Laws.RowMatch.Statement (.qSqr a b) :=
  have hm : ((0xFF00FFFF, 0x39000000) : Word × Word) ∈ rowsFp2 := by decide
  ⟨_, mem_rowsFp2 hm, encR_mask _ _ _ _ _ _ _ false false true true true true _ _ (by decide)
      (by change _ = encR 57 0 0 0 0 0 0; decide)⟩

theorem Laws.RowMatch.qInv (a b : RegIdx) :
    Laws.RowMatch.Statement (.qInv a b) :=
  have hm : ((0xFF00FFFF, 0x3A000000) : Word × Word) ∈ rowsFp2 := by decide
  ⟨_, mem_rowsFp2 hm, encR_mask _ _ _ _ _ _ _ false false true true true true _ _ (by decide)
      (by change _ = encR 58 0 0 0 0 0 0; decide)⟩

theorem Laws.RowMatch.qDiv (a b c : RegIdx) :
    Laws.RowMatch.Statement (.qDiv a b c) :=
  have hm : ((0xFF000FFF, 0x3B000000) : Word × Word) ∈ rowsFp2 := by decide
  ⟨_, mem_rowsFp2 hm, encR_mask _ _ _ _ _ _ _ false false false true true true _ _ (by decide)
      (by change _ = encR 59 0 0 0 0 0 0; decide)⟩

theorem Laws.RowMatch.qPow (a b c : RegIdx) :
    Laws.RowMatch.Statement (.qPow a b c) :=
  have hm : ((0xFF000FFF, 0x3C000000) : Word × Word) ∈ rowsFp2 := by decide
  ⟨_, mem_rowsFp2 hm, encR_mask _ _ _ _ _ _ _ false false false true true true _ _ (by decide)
      (by change _ = encR 60 0 0 0 0 0 0; decide)⟩

theorem Laws.RowMatch.qSqrt (a b : RegIdx) :
    Laws.RowMatch.Statement (.qSqrt a b) :=
  have hm : ((0xFF00FFFF, 0x3D000000) : Word × Word) ∈ rowsFp2 := by decide
  ⟨_, mem_rowsFp2 hm, encR_mask _ _ _ _ _ _ _ false false true true true true _ _ (by decide)
      (by change _ = encR 61 0 0 0 0 0 0; decide)⟩

theorem Laws.RowMatch.qEq (a b c : RegIdx) :
    Laws.RowMatch.Statement (.qEq a b c) :=
  have hm : ((0xFF000FFF, 0x3E000000) : Word × Word) ∈ rowsFp2 := by decide
  ⟨_, mem_rowsFp2 hm, encR_mask _ _ _ _ _ _ _ false false false true true true _ _ (by decide)
      (by change _ = encR 62 0 0 0 0 0 0; decide)⟩

theorem Laws.RowMatch.qMulnr (a b : RegIdx) :
    Laws.RowMatch.Statement (.qMulnr a b) :=
  have hm : ((0xFF00FFFF, 0x3F000000) : Word × Word) ∈ rowsFp2 := by decide
  ⟨_, mem_rowsFp2 hm, encR_mask _ _ _ _ _ _ _ false false true true true true _ _ (by decide)
      (by change _ = encR 63 0 0 0 0 0 0; decide)⟩

theorem Laws.RowMatch.sMov (a b : RegIdx) :
    Laws.RowMatch.Statement (.sMov a b) :=
  have hm : ((0xFF00FFFF, 0x40000000) : Word × Word) ∈ rowsFp6 := by decide
  ⟨_, mem_rowsFp6 hm, encR_mask _ _ _ _ _ _ _ false false true true true true _ _ (by decide)
      (by change _ = encR 64 0 0 0 0 0 0; decide)⟩

theorem Laws.RowMatch.sPack (a b c d : RegIdx) :
    Laws.RowMatch.Statement (.sPack a b c d) :=
  have hm : ((0xFF0000FF, 0x41000000) : Word × Word) ∈ rowsFp6 := by decide
  ⟨_, mem_rowsFp6 hm, encR_mask _ _ _ _ _ _ _ false false false false true true _ _ (by decide)
      (by change _ = encR 65 0 0 0 0 0 0; decide)⟩

theorem Laws.RowMatch.sGet (a b : RegIdx) (n : BitVec 4) :
    Laws.RowMatch.Statement (.sGet a b n) :=
  have hm : ((0xFF00FFF0, 0x42000000) : Word × Word) ∈ rowsFp6 := by decide
  ⟨_, mem_rowsFp6 hm, encR_mask _ _ _ _ _ _ _ false false true true true false _ _ (by decide)
      (by change _ = encR 66 0 0 0 0 0 0; decide)⟩

theorem Laws.RowMatch.sMul1 (a b c : RegIdx) :
    Laws.RowMatch.Statement (.sMul1 a b c) :=
  have hm : ((0xFF000FFF, 0x43000000) : Word × Word) ∈ rowsFp6 := by decide
  ⟨_, mem_rowsFp6 hm, encR_mask _ _ _ _ _ _ _ false false false true true true _ _ (by decide)
      (by change _ = encR 67 0 0 0 0 0 0; decide)⟩

theorem Laws.RowMatch.sMul01 (a b c d : RegIdx) :
    Laws.RowMatch.Statement (.sMul01 a b c d) :=
  have hm : ((0xFF0000FF, 0x44000000) : Word × Word) ∈ rowsFp6 := by decide
  ⟨_, mem_rowsFp6 hm, encR_mask _ _ _ _ _ _ _ false false false false true true _ _ (by decide)
      (by change _ = encR 68 0 0 0 0 0 0; decide)⟩

theorem Laws.RowMatch.sAdd (a b c : RegIdx) :
    Laws.RowMatch.Statement (.sAdd a b c) :=
  have hm : ((0xFF000FFF, 0x45000000) : Word × Word) ∈ rowsFp6 := by decide
  ⟨_, mem_rowsFp6 hm, encR_mask _ _ _ _ _ _ _ false false false true true true _ _ (by decide)
      (by change _ = encR 69 0 0 0 0 0 0; decide)⟩

theorem Laws.RowMatch.sSub (a b c : RegIdx) :
    Laws.RowMatch.Statement (.sSub a b c) :=
  have hm : ((0xFF000FFF, 0x46000000) : Word × Word) ∈ rowsFp6 := by decide
  ⟨_, mem_rowsFp6 hm, encR_mask _ _ _ _ _ _ _ false false false true true true _ _ (by decide)
      (by change _ = encR 70 0 0 0 0 0 0; decide)⟩

theorem Laws.RowMatch.sNeg (a b : RegIdx) :
    Laws.RowMatch.Statement (.sNeg a b) :=
  have hm : ((0xFF00FFFF, 0x47000000) : Word × Word) ∈ rowsFp6 := by decide
  ⟨_, mem_rowsFp6 hm, encR_mask _ _ _ _ _ _ _ false false true true true true _ _ (by decide)
      (by change _ = encR 71 0 0 0 0 0 0; decide)⟩

theorem Laws.RowMatch.sMul (a b c : RegIdx) :
    Laws.RowMatch.Statement (.sMul a b c) :=
  have hm : ((0xFF000FFF, 0x48000000) : Word × Word) ∈ rowsFp6 := by decide
  ⟨_, mem_rowsFp6 hm, encR_mask _ _ _ _ _ _ _ false false false true true true _ _ (by decide)
      (by change _ = encR 72 0 0 0 0 0 0; decide)⟩

theorem Laws.RowMatch.sSqr (a b : RegIdx) :
    Laws.RowMatch.Statement (.sSqr a b) :=
  have hm : ((0xFF00FFFF, 0x49000000) : Word × Word) ∈ rowsFp6 := by decide
  ⟨_, mem_rowsFp6 hm, encR_mask _ _ _ _ _ _ _ false false true true true true _ _ (by decide)
      (by change _ = encR 73 0 0 0 0 0 0; decide)⟩

theorem Laws.RowMatch.sInv (a b : RegIdx) :
    Laws.RowMatch.Statement (.sInv a b) :=
  have hm : ((0xFF00FFFF, 0x4A000000) : Word × Word) ∈ rowsFp6 := by decide
  ⟨_, mem_rowsFp6 hm, encR_mask _ _ _ _ _ _ _ false false true true true true _ _ (by decide)
      (by change _ = encR 74 0 0 0 0 0 0; decide)⟩

theorem Laws.RowMatch.sDiv (a b c : RegIdx) :
    Laws.RowMatch.Statement (.sDiv a b c) :=
  have hm : ((0xFF000FFF, 0x4B000000) : Word × Word) ∈ rowsFp6 := by decide
  ⟨_, mem_rowsFp6 hm, encR_mask _ _ _ _ _ _ _ false false false true true true _ _ (by decide)
      (by change _ = encR 75 0 0 0 0 0 0; decide)⟩

theorem Laws.RowMatch.sPow (a b c : RegIdx) :
    Laws.RowMatch.Statement (.sPow a b c) :=
  have hm : ((0xFF000FFF, 0x4C000000) : Word × Word) ∈ rowsFp6 := by decide
  ⟨_, mem_rowsFp6 hm, encR_mask _ _ _ _ _ _ _ false false false true true true _ _ (by decide)
      (by change _ = encR 76 0 0 0 0 0 0; decide)⟩

theorem Laws.RowMatch.sEq (a b c : RegIdx) :
    Laws.RowMatch.Statement (.sEq a b c) :=
  have hm : ((0xFF000FFF, 0x4E000000) : Word × Word) ∈ rowsFp6 := by decide
  ⟨_, mem_rowsFp6 hm, encR_mask _ _ _ _ _ _ _ false false false true true true _ _ (by decide)
      (by change _ = encR 78 0 0 0 0 0 0; decide)⟩

theorem Laws.RowMatch.sMulnr (a b : RegIdx) :
    Laws.RowMatch.Statement (.sMulnr a b) :=
  have hm : ((0xFF00FFFF, 0x4F000000) : Word × Word) ∈ rowsFp6 := by decide
  ⟨_, mem_rowsFp6 hm, encR_mask _ _ _ _ _ _ _ false false true true true true _ _ (by decide)
      (by change _ = encR 79 0 0 0 0 0 0; decide)⟩

theorem Laws.RowMatch.tMov (a b : RegIdx) :
    Laws.RowMatch.Statement (.tMov a b) :=
  have hm : ((0xFF00FFFF, 0x50000000) : Word × Word) ∈ rowsFp12 := by decide
  ⟨_, mem_rowsFp12 hm, encR_mask _ _ _ _ _ _ _ false false true true true true _ _ (by decide)
      (by change _ = encR 80 0 0 0 0 0 0; decide)⟩

theorem Laws.RowMatch.tPack (a b c : RegIdx) :
    Laws.RowMatch.Statement (.tPack a b c) :=
  have hm : ((0xFF000FFF, 0x51000000) : Word × Word) ∈ rowsFp12 := by decide
  ⟨_, mem_rowsFp12 hm, encR_mask _ _ _ _ _ _ _ false false false true true true _ _ (by decide)
      (by change _ = encR 81 0 0 0 0 0 0; decide)⟩

theorem Laws.RowMatch.tGet (a b : RegIdx) (n : BitVec 4) :
    Laws.RowMatch.Statement (.tGet a b n) :=
  have hm : ((0xFF00FFF0, 0x52000000) : Word × Word) ∈ rowsFp12 := by decide
  ⟨_, mem_rowsFp12 hm, encR_mask _ _ _ _ _ _ _ false false true true true false _ _ (by decide)
      (by change _ = encR 82 0 0 0 0 0 0; decide)⟩

theorem Laws.RowMatch.tFrob (a b : RegIdx) (n : BitVec 4) :
    Laws.RowMatch.Statement (.tFrob a b n) :=
  have hm : ((0xFF00FFF0, 0x53000000) : Word × Word) ∈ rowsFp12 := by decide
  ⟨_, mem_rowsFp12 hm, encR_mask _ _ _ _ _ _ _ false false true true true false _ _ (by decide)
      (by change _ = encR 83 0 0 0 0 0 0; decide)⟩

theorem Laws.RowMatch.tConj (a b : RegIdx) :
    Laws.RowMatch.Statement (.tConj a b) :=
  have hm : ((0xFF00FFFF, 0x54000000) : Word × Word) ∈ rowsFp12 := by decide
  ⟨_, mem_rowsFp12 hm, encR_mask _ _ _ _ _ _ _ false false true true true true _ _ (by decide)
      (by change _ = encR 84 0 0 0 0 0 0; decide)⟩

theorem Laws.RowMatch.tAdd (a b c : RegIdx) :
    Laws.RowMatch.Statement (.tAdd a b c) :=
  have hm : ((0xFF000FFF, 0x55000000) : Word × Word) ∈ rowsFp12 := by decide
  ⟨_, mem_rowsFp12 hm, encR_mask _ _ _ _ _ _ _ false false false true true true _ _ (by decide)
      (by change _ = encR 85 0 0 0 0 0 0; decide)⟩

theorem Laws.RowMatch.tSub (a b c : RegIdx) :
    Laws.RowMatch.Statement (.tSub a b c) :=
  have hm : ((0xFF000FFF, 0x56000000) : Word × Word) ∈ rowsFp12 := by decide
  ⟨_, mem_rowsFp12 hm, encR_mask _ _ _ _ _ _ _ false false false true true true _ _ (by decide)
      (by change _ = encR 86 0 0 0 0 0 0; decide)⟩

theorem Laws.RowMatch.tNeg (a b : RegIdx) :
    Laws.RowMatch.Statement (.tNeg a b) :=
  have hm : ((0xFF00FFFF, 0x57000000) : Word × Word) ∈ rowsFp12 := by decide
  ⟨_, mem_rowsFp12 hm, encR_mask _ _ _ _ _ _ _ false false true true true true _ _ (by decide)
      (by change _ = encR 87 0 0 0 0 0 0; decide)⟩

theorem Laws.RowMatch.tMul (a b c : RegIdx) :
    Laws.RowMatch.Statement (.tMul a b c) :=
  have hm : ((0xFF000FFF, 0x58000000) : Word × Word) ∈ rowsFp12 := by decide
  ⟨_, mem_rowsFp12 hm, encR_mask _ _ _ _ _ _ _ false false false true true true _ _ (by decide)
      (by change _ = encR 88 0 0 0 0 0 0; decide)⟩

theorem Laws.RowMatch.tSqr (a b : RegIdx) :
    Laws.RowMatch.Statement (.tSqr a b) :=
  have hm : ((0xFF00FFFF, 0x59000000) : Word × Word) ∈ rowsFp12 := by decide
  ⟨_, mem_rowsFp12 hm, encR_mask _ _ _ _ _ _ _ false false true true true true _ _ (by decide)
      (by change _ = encR 89 0 0 0 0 0 0; decide)⟩

theorem Laws.RowMatch.tInv (a b : RegIdx) :
    Laws.RowMatch.Statement (.tInv a b) :=
  have hm : ((0xFF00FFFF, 0x5A000000) : Word × Word) ∈ rowsFp12 := by decide
  ⟨_, mem_rowsFp12 hm, encR_mask _ _ _ _ _ _ _ false false true true true true _ _ (by decide)
      (by change _ = encR 90 0 0 0 0 0 0; decide)⟩

theorem Laws.RowMatch.tDiv (a b c : RegIdx) :
    Laws.RowMatch.Statement (.tDiv a b c) :=
  have hm : ((0xFF000FFF, 0x5B000000) : Word × Word) ∈ rowsFp12 := by decide
  ⟨_, mem_rowsFp12 hm, encR_mask _ _ _ _ _ _ _ false false false true true true _ _ (by decide)
      (by change _ = encR 91 0 0 0 0 0 0; decide)⟩

theorem Laws.RowMatch.tPow (a b c : RegIdx) :
    Laws.RowMatch.Statement (.tPow a b c) :=
  have hm : ((0xFF000FFF, 0x5C000000) : Word × Word) ∈ rowsFp12 := by decide
  ⟨_, mem_rowsFp12 hm, encR_mask _ _ _ _ _ _ _ false false false true true true _ _ (by decide)
      (by change _ = encR 92 0 0 0 0 0 0; decide)⟩

theorem Laws.RowMatch.tMul014 (a b c d e : RegIdx) :
    Laws.RowMatch.Statement (.tMul014 a b c d e) :=
  have hm : ((0xFF00000F, 0x5D000000) : Word × Word) ∈ rowsFp12 := by decide
  ⟨_, mem_rowsFp12 hm, encR_mask _ _ _ _ _ _ _ false false false false false true _ _ (by decide)
      (by change _ = encR 93 0 0 0 0 0 0; decide)⟩

theorem Laws.RowMatch.tEq (a b c : RegIdx) :
    Laws.RowMatch.Statement (.tEq a b c) :=
  have hm : ((0xFF000FFF, 0x5E000000) : Word × Word) ∈ rowsFp12 := by decide
  ⟨_, mem_rowsFp12 hm, encR_mask _ _ _ _ _ _ _ false false false true true true _ _ (by decide)
      (by change _ = encR 94 0 0 0 0 0 0; decide)⟩

theorem Laws.RowMatch.g1Mov (a b : RegIdx) :
    Laws.RowMatch.Statement (.g1Mov a b) :=
  have hm : ((0xFF00FFFF, 0x60000000) : Word × Word) ∈ rowsG1 := by decide
  ⟨_, mem_rowsG1 hm, encR_mask _ _ _ _ _ _ _ false false true true true true _ _ (by decide)
      (by change _ = encR 96 0 0 0 0 0 0; decide)⟩

theorem Laws.RowMatch.g1Pack (a b c d : RegIdx) :
    Laws.RowMatch.Statement (.g1Pack a b c d) :=
  have hm : ((0xFF0000FF, 0x61000000) : Word × Word) ∈ rowsG1 := by decide
  ⟨_, mem_rowsG1 hm, encR_mask _ _ _ _ _ _ _ false false false false true true _ _ (by decide)
      (by change _ = encR 97 0 0 0 0 0 0; decide)⟩

theorem Laws.RowMatch.g1Getaff (a b c : RegIdx) :
    Laws.RowMatch.Statement (.g1Getaff a b c) :=
  have hm : ((0xFF000FFF, 0x62000000) : Word × Word) ∈ rowsG1 := by decide
  ⟨_, mem_rowsG1 hm, encR_mask _ _ _ _ _ _ _ false false false true true true _ _ (by decide)
      (by change _ = encR 98 0 0 0 0 0 0; decide)⟩

theorem Laws.RowMatch.g1Id (a : RegIdx) :
    Laws.RowMatch.Statement (.g1Id a) :=
  have hm : ((0xFF0FFFFF, 0x63000000) : Word × Word) ∈ rowsG1 := by decide
  ⟨_, mem_rowsG1 hm, encR_mask _ _ _ _ _ _ _ false true true true true true _ _ (by decide)
      (by change _ = encR 99 0 0 0 0 0 0; decide)⟩

theorem Laws.RowMatch.g1Gen (a : RegIdx) :
    Laws.RowMatch.Statement (.g1Gen a) :=
  have hm : ((0xFF0FFFFF, 0x64000000) : Word × Word) ∈ rowsG1 := by decide
  ⟨_, mem_rowsG1 hm, encR_mask _ _ _ _ _ _ _ false true true true true true _ _ (by decide)
      (by change _ = encR 100 0 0 0 0 0 0; decide)⟩

theorem Laws.RowMatch.g1Add (a b c : RegIdx) :
    Laws.RowMatch.Statement (.g1Add a b c) :=
  have hm : ((0xFF000FFF, 0x65000000) : Word × Word) ∈ rowsG1 := by decide
  ⟨_, mem_rowsG1 hm, encR_mask _ _ _ _ _ _ _ false false false true true true _ _ (by decide)
      (by change _ = encR 101 0 0 0 0 0 0; decide)⟩

theorem Laws.RowMatch.g1Sub (a b c : RegIdx) :
    Laws.RowMatch.Statement (.g1Sub a b c) :=
  have hm : ((0xFF000FFF, 0x66000000) : Word × Word) ∈ rowsG1 := by decide
  ⟨_, mem_rowsG1 hm, encR_mask _ _ _ _ _ _ _ false false false true true true _ _ (by decide)
      (by change _ = encR 102 0 0 0 0 0 0; decide)⟩

theorem Laws.RowMatch.g1Neg (a b : RegIdx) :
    Laws.RowMatch.Statement (.g1Neg a b) :=
  have hm : ((0xFF00FFFF, 0x67000000) : Word × Word) ∈ rowsG1 := by decide
  ⟨_, mem_rowsG1 hm, encR_mask _ _ _ _ _ _ _ false false true true true true _ _ (by decide)
      (by change _ = encR 103 0 0 0 0 0 0; decide)⟩

theorem Laws.RowMatch.g1Dbl (a b : RegIdx) :
    Laws.RowMatch.Statement (.g1Dbl a b) :=
  have hm : ((0xFF00FFFF, 0x68000000) : Word × Word) ∈ rowsG1 := by decide
  ⟨_, mem_rowsG1 hm, encR_mask _ _ _ _ _ _ _ false false true true true true _ _ (by decide)
      (by change _ = encR 104 0 0 0 0 0 0; decide)⟩

theorem Laws.RowMatch.g1Mul (a b c : RegIdx) :
    Laws.RowMatch.Statement (.g1Mul a b c) :=
  have hm : ((0xFF000FFF, 0x69000000) : Word × Word) ∈ rowsG1 := by decide
  ⟨_, mem_rowsG1 hm, encR_mask _ _ _ _ _ _ _ false false false true true true _ _ (by decide)
      (by change _ = encR 105 0 0 0 0 0 0; decide)⟩

theorem Laws.RowMatch.g1Mulu (a b c : RegIdx) :
    Laws.RowMatch.Statement (.g1Mulu a b c) :=
  have hm : ((0xFF000FFF, 0x6A000000) : Word × Word) ∈ rowsG1 := by decide
  ⟨_, mem_rowsG1 hm, encR_mask _ _ _ _ _ _ _ false false false true true true _ _ (by decide)
      (by change _ = encR 106 0 0 0 0 0 0; decide)⟩

theorem Laws.RowMatch.g1Mulmx (a b : RegIdx) :
    Laws.RowMatch.Statement (.g1Mulmx a b) :=
  have hm : ((0xFF00FFFF, 0x6B000000) : Word × Word) ∈ rowsG1 := by decide
  ⟨_, mem_rowsG1 hm, encR_mask _ _ _ _ _ _ _ false false true true true true _ _ (by decide)
      (by change _ = encR 107 0 0 0 0 0 0; decide)⟩

theorem Laws.RowMatch.g1Eq (a b c : RegIdx) :
    Laws.RowMatch.Statement (.g1Eq a b c) :=
  have hm : ((0xFF000FFF, 0x6C000000) : Word × Word) ∈ rowsG1 := by decide
  ⟨_, mem_rowsG1 hm, encR_mask _ _ _ _ _ _ _ false false false true true true _ _ (by decide)
      (by change _ = encR 108 0 0 0 0 0 0; decide)⟩

theorem Laws.RowMatch.g1Isid (a b : RegIdx) :
    Laws.RowMatch.Statement (.g1Isid a b) :=
  have hm : ((0xFF00FFFF, 0x6D000000) : Word × Word) ∈ rowsG1 := by decide
  ⟨_, mem_rowsG1 hm, encR_mask _ _ _ _ _ _ _ false false true true true true _ _ (by decide)
      (by change _ = encR 109 0 0 0 0 0 0; decide)⟩

theorem Laws.RowMatch.g1Oncurve (a b : RegIdx) :
    Laws.RowMatch.Statement (.g1Oncurve a b) :=
  have hm : ((0xFF00FFFF, 0x6D000001) : Word × Word) ∈ rowsG1 := by decide
  ⟨_, mem_rowsG1 hm, encR_mask _ _ _ _ _ _ _ false false true true true true _ _ (by decide)
      (by change _ = encR 109 0 0 0 0 0 1; decide)⟩

theorem Laws.RowMatch.g1Insub (a b : RegIdx) :
    Laws.RowMatch.Statement (.g1Insub a b) :=
  have hm : ((0xFF00FFFF, 0x6D000002) : Word × Word) ∈ rowsG1 := by decide
  ⟨_, mem_rowsG1 hm, encR_mask _ _ _ _ _ _ _ false false true true true true _ _ (by decide)
      (by change _ = encR 109 0 0 0 0 0 2; decide)⟩

theorem Laws.RowMatch.g1Valid (a b : RegIdx) :
    Laws.RowMatch.Statement (.g1Valid a b) :=
  have hm : ((0xFF00FFFF, 0x6D000003) : Word × Word) ∈ rowsG1 := by decide
  ⟨_, mem_rowsG1 hm, encR_mask _ _ _ _ _ _ _ false false true true true true _ _ (by decide)
      (by change _ = encR 109 0 0 0 0 0 3; decide)⟩

theorem Laws.RowMatch.g1Clrcof (a b : RegIdx) :
    Laws.RowMatch.Statement (.g1Clrcof a b) :=
  have hm : ((0xFF00FFFF, 0x6E000000) : Word × Word) ∈ rowsG1 := by decide
  ⟨_, mem_rowsG1 hm, encR_mask _ _ _ _ _ _ _ false false true true true true _ _ (by decide)
      (by change _ = encR 110 0 0 0 0 0 0; decide)⟩

theorem Laws.RowMatch.g1Phi (a b : RegIdx) :
    Laws.RowMatch.Statement (.g1Phi a b) :=
  have hm : ((0xFF00FFFF, 0x6F000000) : Word × Word) ∈ rowsG1 := by decide
  ⟨_, mem_rowsG1 hm, encR_mask _ _ _ _ _ _ _ false false true true true true _ _ (by decide)
      (by change _ = encR 111 0 0 0 0 0 0; decide)⟩

theorem Laws.RowMatch.g2Mov (a b : RegIdx) :
    Laws.RowMatch.Statement (.g2Mov a b) :=
  have hm : ((0xFF00FFFF, 0x70000000) : Word × Word) ∈ rowsG2 := by decide
  ⟨_, mem_rowsG2 hm, encR_mask _ _ _ _ _ _ _ false false true true true true _ _ (by decide)
      (by change _ = encR 112 0 0 0 0 0 0; decide)⟩

theorem Laws.RowMatch.g2Pack (a b c d : RegIdx) :
    Laws.RowMatch.Statement (.g2Pack a b c d) :=
  have hm : ((0xFF0000FF, 0x71000000) : Word × Word) ∈ rowsG2 := by decide
  ⟨_, mem_rowsG2 hm, encR_mask _ _ _ _ _ _ _ false false false false true true _ _ (by decide)
      (by change _ = encR 113 0 0 0 0 0 0; decide)⟩

theorem Laws.RowMatch.g2Getaff (a b c : RegIdx) :
    Laws.RowMatch.Statement (.g2Getaff a b c) :=
  have hm : ((0xFF000FFF, 0x72000000) : Word × Word) ∈ rowsG2 := by decide
  ⟨_, mem_rowsG2 hm, encR_mask _ _ _ _ _ _ _ false false false true true true _ _ (by decide)
      (by change _ = encR 114 0 0 0 0 0 0; decide)⟩

theorem Laws.RowMatch.g2Id (a : RegIdx) :
    Laws.RowMatch.Statement (.g2Id a) :=
  have hm : ((0xFF0FFFFF, 0x73000000) : Word × Word) ∈ rowsG2 := by decide
  ⟨_, mem_rowsG2 hm, encR_mask _ _ _ _ _ _ _ false true true true true true _ _ (by decide)
      (by change _ = encR 115 0 0 0 0 0 0; decide)⟩

theorem Laws.RowMatch.g2Gen (a : RegIdx) :
    Laws.RowMatch.Statement (.g2Gen a) :=
  have hm : ((0xFF0FFFFF, 0x74000000) : Word × Word) ∈ rowsG2 := by decide
  ⟨_, mem_rowsG2 hm, encR_mask _ _ _ _ _ _ _ false true true true true true _ _ (by decide)
      (by change _ = encR 116 0 0 0 0 0 0; decide)⟩

theorem Laws.RowMatch.g2Add (a b c : RegIdx) :
    Laws.RowMatch.Statement (.g2Add a b c) :=
  have hm : ((0xFF000FFF, 0x75000000) : Word × Word) ∈ rowsG2 := by decide
  ⟨_, mem_rowsG2 hm, encR_mask _ _ _ _ _ _ _ false false false true true true _ _ (by decide)
      (by change _ = encR 117 0 0 0 0 0 0; decide)⟩

theorem Laws.RowMatch.g2Sub (a b c : RegIdx) :
    Laws.RowMatch.Statement (.g2Sub a b c) :=
  have hm : ((0xFF000FFF, 0x76000000) : Word × Word) ∈ rowsG2 := by decide
  ⟨_, mem_rowsG2 hm, encR_mask _ _ _ _ _ _ _ false false false true true true _ _ (by decide)
      (by change _ = encR 118 0 0 0 0 0 0; decide)⟩

theorem Laws.RowMatch.g2Neg (a b : RegIdx) :
    Laws.RowMatch.Statement (.g2Neg a b) :=
  have hm : ((0xFF00FFFF, 0x77000000) : Word × Word) ∈ rowsG2 := by decide
  ⟨_, mem_rowsG2 hm, encR_mask _ _ _ _ _ _ _ false false true true true true _ _ (by decide)
      (by change _ = encR 119 0 0 0 0 0 0; decide)⟩

theorem Laws.RowMatch.g2Dbl (a b : RegIdx) :
    Laws.RowMatch.Statement (.g2Dbl a b) :=
  have hm : ((0xFF00FFFF, 0x78000000) : Word × Word) ∈ rowsG2 := by decide
  ⟨_, mem_rowsG2 hm, encR_mask _ _ _ _ _ _ _ false false true true true true _ _ (by decide)
      (by change _ = encR 120 0 0 0 0 0 0; decide)⟩

theorem Laws.RowMatch.g2Mul (a b c : RegIdx) :
    Laws.RowMatch.Statement (.g2Mul a b c) :=
  have hm : ((0xFF000FFF, 0x79000000) : Word × Word) ∈ rowsG2 := by decide
  ⟨_, mem_rowsG2 hm, encR_mask _ _ _ _ _ _ _ false false false true true true _ _ (by decide)
      (by change _ = encR 121 0 0 0 0 0 0; decide)⟩

theorem Laws.RowMatch.g2Mulu (a b c : RegIdx) :
    Laws.RowMatch.Statement (.g2Mulu a b c) :=
  have hm : ((0xFF000FFF, 0x7A000000) : Word × Word) ∈ rowsG2 := by decide
  ⟨_, mem_rowsG2 hm, encR_mask _ _ _ _ _ _ _ false false false true true true _ _ (by decide)
      (by change _ = encR 122 0 0 0 0 0 0; decide)⟩

theorem Laws.RowMatch.g2Mulmx (a b : RegIdx) :
    Laws.RowMatch.Statement (.g2Mulmx a b) :=
  have hm : ((0xFF00FFFF, 0x7B000000) : Word × Word) ∈ rowsG2 := by decide
  ⟨_, mem_rowsG2 hm, encR_mask _ _ _ _ _ _ _ false false true true true true _ _ (by decide)
      (by change _ = encR 123 0 0 0 0 0 0; decide)⟩

theorem Laws.RowMatch.g2Eq (a b c : RegIdx) :
    Laws.RowMatch.Statement (.g2Eq a b c) :=
  have hm : ((0xFF000FFF, 0x7C000000) : Word × Word) ∈ rowsG2 := by decide
  ⟨_, mem_rowsG2 hm, encR_mask _ _ _ _ _ _ _ false false false true true true _ _ (by decide)
      (by change _ = encR 124 0 0 0 0 0 0; decide)⟩

theorem Laws.RowMatch.g2Isid (a b : RegIdx) :
    Laws.RowMatch.Statement (.g2Isid a b) :=
  have hm : ((0xFF00FFFF, 0x7D000000) : Word × Word) ∈ rowsG2 := by decide
  ⟨_, mem_rowsG2 hm, encR_mask _ _ _ _ _ _ _ false false true true true true _ _ (by decide)
      (by change _ = encR 125 0 0 0 0 0 0; decide)⟩

theorem Laws.RowMatch.g2Oncurve (a b : RegIdx) :
    Laws.RowMatch.Statement (.g2Oncurve a b) :=
  have hm : ((0xFF00FFFF, 0x7D000001) : Word × Word) ∈ rowsG2 := by decide
  ⟨_, mem_rowsG2 hm, encR_mask _ _ _ _ _ _ _ false false true true true true _ _ (by decide)
      (by change _ = encR 125 0 0 0 0 0 1; decide)⟩

theorem Laws.RowMatch.g2Insub (a b : RegIdx) :
    Laws.RowMatch.Statement (.g2Insub a b) :=
  have hm : ((0xFF00FFFF, 0x7D000002) : Word × Word) ∈ rowsG2 := by decide
  ⟨_, mem_rowsG2 hm, encR_mask _ _ _ _ _ _ _ false false true true true true _ _ (by decide)
      (by change _ = encR 125 0 0 0 0 0 2; decide)⟩

theorem Laws.RowMatch.g2Valid (a b : RegIdx) :
    Laws.RowMatch.Statement (.g2Valid a b) :=
  have hm : ((0xFF00FFFF, 0x7D000003) : Word × Word) ∈ rowsG2 := by decide
  ⟨_, mem_rowsG2 hm, encR_mask _ _ _ _ _ _ _ false false true true true true _ _ (by decide)
      (by change _ = encR 125 0 0 0 0 0 3; decide)⟩

theorem Laws.RowMatch.g2Clrcof (a b : RegIdx) :
    Laws.RowMatch.Statement (.g2Clrcof a b) :=
  have hm : ((0xFF00FFFF, 0x7E000000) : Word × Word) ∈ rowsG2 := by decide
  ⟨_, mem_rowsG2 hm, encR_mask _ _ _ _ _ _ _ false false true true true true _ _ (by decide)
      (by change _ = encR 126 0 0 0 0 0 0; decide)⟩

theorem Laws.RowMatch.g2Psi (a b : RegIdx) :
    Laws.RowMatch.Statement (.g2Psi a b) :=
  have hm : ((0xFF00FFFF, 0x7F000000) : Word × Word) ∈ rowsG2 := by decide
  ⟨_, mem_rowsG2 hm, encR_mask _ _ _ _ _ _ _ false false true true true true _ _ (by decide)
      (by change _ = encR 127 0 0 0 0 0 0; decide)⟩

theorem Laws.RowMatch.g2Psi2 (a b : RegIdx) :
    Laws.RowMatch.Statement (.g2Psi2 a b) :=
  have hm : ((0xFF00FFFF, 0x7F000001) : Word × Word) ∈ rowsG2 := by decide
  ⟨_, mem_rowsG2 hm, encR_mask _ _ _ _ _ _ _ false false true true true true _ _ (by decide)
      (by change _ = encR 127 0 0 0 0 0 1; decide)⟩

theorem Laws.RowMatch.tCycsqr (a b : RegIdx) :
    Laws.RowMatch.Statement (.tCycsqr a b) :=
  have hm : ((0xFF00FFFF, 0x80000000) : Word × Word) ∈ rowsPairing := by decide
  ⟨_, mem_rowsPairing hm, encR_mask _ _ _ _ _ _ _ false false true true true true _ _ (by decide)
      (by change _ = encR 128 0 0 0 0 0 0; decide)⟩

theorem Laws.RowMatch.tCycexp (a b c : RegIdx) :
    Laws.RowMatch.Statement (.tCycexp a b c) :=
  have hm : ((0xFF000FFF, 0x81000000) : Word × Word) ∈ rowsPairing := by decide
  ⟨_, mem_rowsPairing hm, encR_mask _ _ _ _ _ _ _ false false false true true true _ _ (by decide)
      (by change _ = encR 129 0 0 0 0 0 0; decide)⟩

theorem Laws.RowMatch.tFinalexp (a b : RegIdx) :
    Laws.RowMatch.Statement (.tFinalexp a b) :=
  have hm : ((0xFF00FFFF, 0x82000000) : Word × Word) ∈ rowsPairing := by decide
  ⟨_, mem_rowsPairing hm, encR_mask _ _ _ _ _ _ _ false false true true true true _ _ (by decide)
      (by change _ = encR 130 0 0 0 0 0 0; decide)⟩

theorem Laws.RowMatch.pairMl (a b c : RegIdx) :
    Laws.RowMatch.Statement (.pairMl a b c) :=
  have hm : ((0xFF000FFF, 0x83000000) : Word × Word) ∈ rowsPairing := by decide
  ⟨_, mem_rowsPairing hm, encR_mask _ _ _ _ _ _ _ false false false true true true _ _ (by decide)
      (by change _ = encR 131 0 0 0 0 0 0; decide)⟩

theorem Laws.RowMatch.pair (a b c : RegIdx) :
    Laws.RowMatch.Statement (.pair a b c) :=
  have hm : ((0xFF000FFF, 0x84000000) : Word × Word) ∈ rowsPairing := by decide
  ⟨_, mem_rowsPairing hm, encR_mask _ _ _ _ _ _ _ false false false true true true _ _ (by decide)
      (by change _ = encR 132 0 0 0 0 0 0; decide)⟩

theorem Laws.RowMatch.h2cDst (b c : RegIdx) :
    Laws.RowMatch.Statement (.h2cDst b c) :=
  have hm : ((0xFFF00FFF, 0x90000000) : Word × Word) ∈ rowsHashToCurve := by decide
  ⟨_, mem_rowsHashToCurve hm, encR_mask _ _ _ _ _ _ _ true false false true true true _ _ (by decide)
      (by change _ = encR 144 0 0 0 0 0 0; decide)⟩

theorem Laws.RowMatch.h2cXmd (a b c d : RegIdx) :
    Laws.RowMatch.Statement (.h2cXmd a b c d) :=
  have hm : ((0xFF0000FF, 0x91000000) : Word × Word) ∈ rowsHashToCurve := by decide
  ⟨_, mem_rowsHashToCurve hm, encR_mask _ _ _ _ _ _ _ false false false false true true _ _ (by decide)
      (by change _ = encR 145 0 0 0 0 0 0; decide)⟩

theorem Laws.RowMatch.h2cH2f (a b c d : RegIdx) :
    Laws.RowMatch.Statement (.h2cH2f a b c d) :=
  have hm : ((0xFF0000FF, 0x92000000) : Word × Word) ∈ rowsHashToCurve := by decide
  ⟨_, mem_rowsHashToCurve hm, encR_mask _ _ _ _ _ _ _ false false false false true true _ _ (by decide)
      (by change _ = encR 146 0 0 0 0 0 0; decide)⟩

theorem Laws.RowMatch.h2cSwu (a b : RegIdx) :
    Laws.RowMatch.Statement (.h2cSwu a b) :=
  have hm : ((0xFF00FFFF, 0x93000000) : Word × Word) ∈ rowsHashToCurve := by decide
  ⟨_, mem_rowsHashToCurve hm, encR_mask _ _ _ _ _ _ _ false false true true true true _ _ (by decide)
      (by change _ = encR 147 0 0 0 0 0 0; decide)⟩

theorem Laws.RowMatch.h2cIso (a b : RegIdx) :
    Laws.RowMatch.Statement (.h2cIso a b) :=
  have hm : ((0xFF00FFFF, 0x94000000) : Word × Word) ∈ rowsHashToCurve := by decide
  ⟨_, mem_rowsHashToCurve hm, encR_mask _ _ _ _ _ _ _ false false true true true true _ _ (by decide)
      (by change _ = encR 148 0 0 0 0 0 0; decide)⟩

theorem Laws.RowMatch.h2cMap (a b c : RegIdx) :
    Laws.RowMatch.Statement (.h2cMap a b c) :=
  have hm : ((0xFF000FFF, 0x95000000) : Word × Word) ∈ rowsHashToCurve := by decide
  ⟨_, mem_rowsHashToCurve hm, encR_mask _ _ _ _ _ _ _ false false false true true true _ _ (by decide)
      (by change _ = encR 149 0 0 0 0 0 0; decide)⟩

theorem Laws.RowMatch.h2cHash (a b c : RegIdx) :
    Laws.RowMatch.Statement (.h2cHash a b c) :=
  have hm : ((0xFF000FFF, 0x96000000) : Word × Word) ∈ rowsHashToCurve := by decide
  ⟨_, mem_rowsHashToCurve hm, encR_mask _ _ _ _ _ _ _ false false false true true true _ _ (by decide)
      (by change _ = encR 150 0 0 0 0 0 0; decide)⟩

theorem Laws.RowMatch.blsPk (a b : RegIdx) :
    Laws.RowMatch.Statement (.blsPk a b) :=
  have hm : ((0xFF00FFFF, 0xA0000000) : Word × Word) ∈ rowsBls := by decide
  ⟨_, mem_rowsBls hm, encR_mask _ _ _ _ _ _ _ false false true true true true _ _ (by decide)
      (by change _ = encR 160 0 0 0 0 0 0; decide)⟩

theorem Laws.RowMatch.blsSign (a b c d e : RegIdx) :
    Laws.RowMatch.Statement (.blsSign a b c d e) :=
  have hm : ((0xFF00000F, 0xA1000000) : Word × Word) ∈ rowsBls := by decide
  ⟨_, mem_rowsBls hm, encR_mask _ _ _ _ _ _ _ false false false false false true _ _ (by decide)
      (by change _ = encR 161 0 0 0 0 0 0; decide)⟩

theorem Laws.RowMatch.blsSignp (a b c : RegIdx) :
    Laws.RowMatch.Statement (.blsSignp a b c) :=
  have hm : ((0xFF000FFF, 0xA2000000) : Word × Word) ∈ rowsBls := by decide
  ⟨_, mem_rowsBls hm, encR_mask _ _ _ _ _ _ _ false false false true true true _ _ (by decide)
      (by change _ = encR 162 0 0 0 0 0 0; decide)⟩

theorem Laws.RowMatch.blsVerify (a b c d : RegIdx) :
    Laws.RowMatch.Statement (.blsVerify a b c d) :=
  have hm : ((0xFF0000FF, 0xA3000000) : Word × Word) ∈ rowsBls := by decide
  ⟨_, mem_rowsBls hm, encR_mask _ _ _ _ _ _ _ false false false false true true _ _ (by decide)
      (by change _ = encR 163 0 0 0 0 0 0; decide)⟩

theorem Laws.RowMatch.blsVerifyb (a b c d e : RegIdx) :
    Laws.RowMatch.Statement (.blsVerifyb a b c d e) :=
  have hm : ((0xFF00000F, 0xA4000000) : Word × Word) ∈ rowsBls := by decide
  ⟨_, mem_rowsBls hm, encR_mask _ _ _ _ _ _ _ false false false false false true _ _ (by decide)
      (by change _ = encR 164 0 0 0 0 0 0; decide)⟩

theorem Laws.RowMatch.blsAggpk (a b c : RegIdx) :
    Laws.RowMatch.Statement (.blsAggpk a b c) :=
  have hm : ((0xFF000FFF, 0xA5000000) : Word × Word) ∈ rowsBls := by decide
  ⟨_, mem_rowsBls hm, encR_mask _ _ _ _ _ _ _ false false false true true true _ _ (by decide)
      (by change _ = encR 165 0 0 0 0 0 0; decide)⟩

theorem Laws.RowMatch.blsAggsig (a b c : RegIdx) :
    Laws.RowMatch.Statement (.blsAggsig a b c) :=
  have hm : ((0xFF000FFF, 0xA6000000) : Word × Word) ∈ rowsBls := by decide
  ⟨_, mem_rowsBls hm, encR_mask _ _ _ _ _ _ _ false false false true true true _ _ (by decide)
      (by change _ = encR 166 0 0 0 0 0 0; decide)⟩

theorem Laws.RowMatch.blsVerifyn (a b c d e n : RegIdx) :
    Laws.RowMatch.Statement (.blsVerifyn a b c d e n) :=
  have hm : ((0xFF000000, 0xA7000000) : Word × Word) ∈ rowsBls := by decide
  ⟨_, mem_rowsBls hm, encR_mask _ _ _ _ _ _ _ false false false false false false _ _ (by decide)
      (by change _ = encR 167 0 0 0 0 0 0; decide)⟩

theorem Laws.RowMatch.kMov (a b : RegIdx) :
    Laws.RowMatch.Statement (.kMov a b) :=
  have hm : ((0xFF00FFFF, 0xB0000000) : Word × Word) ∈ rowsScalar := by decide
  ⟨_, mem_rowsScalar hm, encR_mask _ _ _ _ _ _ _ false false true true true true _ _ (by decide)
      (by change _ = encR 176 0 0 0 0 0 0; decide)⟩

theorem Laws.RowMatch.kLi (a : RegIdx) (imm : BitVec 16) :
    Laws.RowMatch.Statement (.kLi a imm) :=
  have hm : ((0xFF0F0000, 0xB1000000) : Word × Word) ∈ rowsScalar := by decide
  ⟨_, mem_rowsScalar hm, encI_mask _ _ _ _ false true _ _ (by decide)
      (by change _ = encI 177 0 0 0; decide)⟩

theorem Laws.RowMatch.kLd (a b c : RegIdx) :
    Laws.RowMatch.Statement (.kLd a b c) :=
  have hm : ((0xFF000FFF, 0xB2000000) : Word × Word) ∈ rowsScalar := by decide
  ⟨_, mem_rowsScalar hm, encR_mask _ _ _ _ _ _ _ false false false true true true _ _ (by decide)
      (by change _ = encR 178 0 0 0 0 0 0; decide)⟩

theorem Laws.RowMatch.kLdsk (a b c : RegIdx) :
    Laws.RowMatch.Statement (.kLdsk a b c) :=
  have hm : ((0xFF000FFF, 0xB3000000) : Word × Word) ∈ rowsScalar := by decide
  ⟨_, mem_rowsScalar hm, encR_mask _ _ _ _ _ _ _ false false false true true true _ _ (by decide)
      (by change _ = encR 179 0 0 0 0 0 0; decide)⟩

theorem Laws.RowMatch.kSt (a b : RegIdx) (imm : BitVec 16) :
    Laws.RowMatch.Statement (.kSt a b imm) :=
  have hm : ((0xFF000000, 0xB4000000) : Word × Word) ∈ rowsScalar := by decide
  ⟨_, mem_rowsScalar hm, encI_mask _ _ _ _ false false _ _ (by decide)
      (by change _ = encI 180 0 0 0; decide)⟩

theorem Laws.RowMatch.kValid (a b : RegIdx) :
    Laws.RowMatch.Statement (.kValid a b) :=
  have hm : ((0xFF00FFFF, 0xB5000000) : Word × Word) ∈ rowsScalar := by decide
  ⟨_, mem_rowsScalar hm, encR_mask _ _ _ _ _ _ _ false false true true true true _ _ (by decide)
      (by change _ = encR 181 0 0 0 0 0 0; decide)⟩

theorem Laws.RowMatch.g1Ldc (a b : RegIdx) (imm : BitVec 16) :
    Laws.RowMatch.Statement (.g1Ldc a b imm) :=
  have hm : ((0xFF000000, 0xC0000000) : Word × Word) ∈ rowsPointMemory := by decide
  ⟨_, mem_rowsPointMemory hm, encI_mask _ _ _ _ false false _ _ (by decide)
      (by change _ = encI 192 0 0 0; decide)⟩

theorem Laws.RowMatch.g1Ldu (a b : RegIdx) (imm : BitVec 16) :
    Laws.RowMatch.Statement (.g1Ldu a b imm) :=
  have hm : ((0xFF000000, 0xC1000000) : Word × Word) ∈ rowsPointMemory := by decide
  ⟨_, mem_rowsPointMemory hm, encI_mask _ _ _ _ false false _ _ (by decide)
      (by change _ = encI 193 0 0 0; decide)⟩

theorem Laws.RowMatch.g1Stc (a b : RegIdx) (imm : BitVec 16) :
    Laws.RowMatch.Statement (.g1Stc a b imm) :=
  have hm : ((0xFF000000, 0xC2000000) : Word × Word) ∈ rowsPointMemory := by decide
  ⟨_, mem_rowsPointMemory hm, encI_mask _ _ _ _ false false _ _ (by decide)
      (by change _ = encI 194 0 0 0; decide)⟩

theorem Laws.RowMatch.g1Stu (a b : RegIdx) (imm : BitVec 16) :
    Laws.RowMatch.Statement (.g1Stu a b imm) :=
  have hm : ((0xFF000000, 0xC3000000) : Word × Word) ∈ rowsPointMemory := by decide
  ⟨_, mem_rowsPointMemory hm, encI_mask _ _ _ _ false false _ _ (by decide)
      (by change _ = encI 195 0 0 0; decide)⟩

theorem Laws.RowMatch.g2Ldc (a b : RegIdx) (imm : BitVec 16) :
    Laws.RowMatch.Statement (.g2Ldc a b imm) :=
  have hm : ((0xFF000000, 0xC4000000) : Word × Word) ∈ rowsPointMemory := by decide
  ⟨_, mem_rowsPointMemory hm, encI_mask _ _ _ _ false false _ _ (by decide)
      (by change _ = encI 196 0 0 0; decide)⟩

theorem Laws.RowMatch.g2Ldu (a b : RegIdx) (imm : BitVec 16) :
    Laws.RowMatch.Statement (.g2Ldu a b imm) :=
  have hm : ((0xFF000000, 0xC5000000) : Word × Word) ∈ rowsPointMemory := by decide
  ⟨_, mem_rowsPointMemory hm, encI_mask _ _ _ _ false false _ _ (by decide)
      (by change _ = encI 197 0 0 0; decide)⟩

theorem Laws.RowMatch.g2Stc (a b : RegIdx) (imm : BitVec 16) :
    Laws.RowMatch.Statement (.g2Stc a b imm) :=
  have hm : ((0xFF000000, 0xC6000000) : Word × Word) ∈ rowsPointMemory := by decide
  ⟨_, mem_rowsPointMemory hm, encI_mask _ _ _ _ false false _ _ (by decide)
      (by change _ = encI 198 0 0 0; decide)⟩

theorem Laws.RowMatch.g2Stu (a b : RegIdx) (imm : BitVec 16) :
    Laws.RowMatch.Statement (.g2Stu a b imm) :=
  have hm : ((0xFF000000, 0xC7000000) : Word × Word) ∈ rowsPointMemory := by decide
  ⟨_, mem_rowsPointMemory hm, encI_mask _ _ _ _ false false _ _ (by decide)
      (by change _ = encI 199 0 0 0; decide)⟩

theorem Laws.RowMatch.g1Staffn (a b c : RegIdx) :
    Laws.RowMatch.Statement (.g1Staffn a b c) :=
  have hm : ((0xFF000FFF, 0xC8000000) : Word × Word) ∈ rowsPointMemory := by decide
  ⟨_, mem_rowsPointMemory hm, encR_mask _ _ _ _ _ _ _ false false false true true true _ _ (by decide)
      (by change _ = encR 200 0 0 0 0 0 0; decide)⟩

theorem Laws.RowMatch.g2Staffn (a b c : RegIdx) :
    Laws.RowMatch.Statement (.g2Staffn a b c) :=
  have hm : ((0xFF000FFF, 0xC9000000) : Word × Word) ∈ rowsPointMemory := by decide
  ⟨_, mem_rowsPointMemory hm, encR_mask _ _ _ _ _ _ _ false false false true true true _ _ (by decide)
      (by change _ = encR 201 0 0 0 0 0 0; decide)⟩

theorem Laws.RowMatch.g1Precomp (a : RegIdx) (n : BitVec 4) :
    Laws.RowMatch.Statement (.g1Precomp a n) :=
  have hm : ((0xFF0FFFF0, 0xCA000000) : Word × Word) ∈ rowsPointMemory := by decide
  ⟨_, mem_rowsPointMemory hm, encR_mask _ _ _ _ _ _ _ false true true true true false _ _ (by decide)
      (by change _ = encR 202 0 0 0 0 0 0; decide)⟩

theorem Laws.RowMatch.g2Precomp (a : RegIdx) (n : BitVec 4) :
    Laws.RowMatch.Statement (.g2Precomp a n) :=
  have hm : ((0xFF0FFFF0, 0xCB000000) : Word × Word) ∈ rowsPointMemory := by decide
  ⟨_, mem_rowsPointMemory hm, encR_mask _ _ _ _ _ _ _ false true true true true false _ _ (by decide)
      (by change _ = encR 203 0 0 0 0 0 0; decide)⟩

end Sys2Proof
end

