-- ==== Sys2Proof/Tests/Slice0.lean ====
section
/-! SUPPORT. Small tests: ill-formed terms refused, the words the instruction rules print decoded, single steps on the
values the rules print, and for every statement with hypotheses a state and operands that meet them
(`witness_<statement>`). Expected values come from the spec's rules, named beside them. -/

namespace Sys2Proof.Tests

open Sys2Proof Sys2Proof.Machine

set_option Elab.async false

/-! Well-formedness and decoding. -/

theorem test_illFormed_qGet : (Instr.qGet 1 2 2).WellFormed = false := by decide
theorem test_illFormed_sGet : (Instr.sGet 1 2 3).WellFormed = false := by decide
theorem test_illFormed_tGet : (Instr.tGet 1 2 2).WellFormed = false := by decide

/-- Their words are refused too (R105, R113), and so are an unused field that is not zero and the unassigned opcodes
0x00 and 0xFF (R106, R107). -/
theorem test_decodeRefuses :
    decode 0x32120002 = .error .immediateRange ∧ decode 0x42120003 = .error .immediateRange ∧
    decode 0x52120002 = .error .immediateRange ∧ decode 0x13123001 = .error .unusedField ∧
    decode 0x00000000 = .error .unassigned ∧ decode 0xFF000000 = .error .unassigned ∧
    decode 0x6D120004 = .error .unassigned ∧ decode 0x7F120002 = .error .unassigned := by decide

/-- Whether each word decodes to the instruction beside it, and is the word of it. -/
def decodes (l : List (Word × Instr)) : Bool :=
  l.all fun x => decide (decode x.1 = .ok x.2) && x.2.WellFormed && encode x.2 == x.1

/-- The host's view of an instruction word. -/
theorem test_decodeTableWord :
    decodeTableWord 32 0x25312000 = some (.fAdd 3 1 2) ∧ decodeTableWord 32 0 = none := by decide

/-- Words printed in the instruction rules (R134 to R141). -/
theorem test_decodeControl :
    decodes ([
      (0x01000000, .halt), (0x02000000, .nop), (0x0300002A, .fail 0x2a), (0x04F00005, .jal 15 5),
      (0x050F0000, .jalr 0 15), (0x0612FFFD, .beq 1 2 0xfffd), (0x07100004, .bne 1 0 4),
      (0x08340002, .bltu 3 4 2)]) = true := by decide

/-- Words printed in the instruction rules (R142 to R153). -/
theorem test_decodeInteger :
    decodes ([
      (0x10101234, .li 1 0x1234), (0x1120ABCD, .lui 2 0xabcd), (0x1233FFFF, .addi 3 3 0xffff),
      (0x13123000, .add 1 2 3), (0x14123000, .sub 1 2 3), (0x15123000, .and 1 2 3), (0x16123000, .or 1 2 3),
      (0x17123000, .xor 1 2 3), (0x18560008, .lw 5 6 8), (0x1956FFFC, .sw 5 6 0xfffc),
      (0x1A780000, .lbu 7 8 0), (0x1B780003, .sb 7 8 3)]) = true := by decide

/-- Words printed in the instruction rules (R185 to R199). -/
theorem test_decodeFp :
    decodes ([
      (0x20120000, .fMov 1 2), (0x21100005, .fLi 1 5), (0x22310030, .fLd 3 1 0x30), (0x23320000, .fSt 3 2 0),
      (0x24012000, .fLdr 0 1 2), (0x25312000, .fAdd 3 1 2), (0x26312000, .fSub 3 1 2), (0x27210000, .fNeg 2 1),
      (0x28312000, .fMul 3 1 2), (0x29210000, .fSqr 2 1), (0x2A210000, .fInv 2 1), (0x2B312000, .fDiv 3 1 2),
      (0x2C213000, .fPow 2 1 3), (0x2D214000, .fSqrt 2 1 4), (0x2E123000, .fEq 1 2 3)]) = true := by decide

/-- Words printed in the instruction rules (R215 to R230). -/
theorem test_decodeFp2 :
    decodes ([
      (0x30120000, .qMov 1 2), (0x31123000, .qPack 1 2 3), (0x32120001, .qGet 1 2 1),
      (0x33120001, .qFrob 1 2 1), (0x34120000, .qSgn0 1 2), (0x35312000, .qAdd 3 1 2),
      (0x36312000, .qSub 3 1 2), (0x37210000, .qNeg 2 1), (0x38312000, .qMul 3 1 2), (0x39210000, .qSqr 2 1),
      (0x3A210000, .qInv 2 1), (0x3B312000, .qDiv 3 1 2), (0x3C213000, .qPow 2 1 3), (0x3D210000, .qSqrt 2 1),
      (0x3E123000, .qEq 1 2 3), (0x3F210000, .qMulnr 2 1)]) = true := by decide

/-- Words printed in the instruction rules (R245 to R259). -/
theorem test_decodeFp6 :
    decodes ([
      (0x40120000, .sMov 1 2), (0x41123400, .sPack 1 2 3 4), (0x42120002, .sGet 1 2 2),
      (0x43123000, .sMul1 1 2 3), (0x44123400, .sMul01 1 2 3 4), (0x45312000, .sAdd 3 1 2),
      (0x46312000, .sSub 3 1 2), (0x47210000, .sNeg 2 1), (0x48312000, .sMul 3 1 2), (0x49210000, .sSqr 2 1),
      (0x4A210000, .sInv 2 1), (0x4B312000, .sDiv 3 1 2), (0x4C213000, .sPow 2 1 3), (0x4E123000, .sEq 1 2 3),
      (0x4F210000, .sMulnr 2 1)]) = true := by decide

/-- Words printed in the instruction rules (R277 to R291). -/
theorem test_decodeFp12 :
    decodes ([
      (0x50120000, .tMov 1 2), (0x51123000, .tPack 1 2 3), (0x52120001, .tGet 1 2 1),
      (0x53120006, .tFrob 1 2 6), (0x54210000, .tConj 2 1), (0x55312000, .tAdd 3 1 2),
      (0x56312000, .tSub 3 1 2), (0x57210000, .tNeg 2 1), (0x58312000, .tMul 3 1 2), (0x59210000, .tSqr 2 1),
      (0x5A210000, .tInv 2 1), (0x5B312000, .tDiv 3 1 2), (0x5C213000, .tPow 2 1 3),
      (0x5D123450, .tMul014 1 2 3 4 5), (0x5E123000, .tEq 1 2 3)]) = true := by decide

/-- Words printed in the instruction rules (R316 to R334). -/
theorem test_decodeG1 :
    decodes ([
      (0x60120000, .g1Mov 1 2), (0x61123400, .g1Pack 1 2 3 4), (0x62123000, .g1Getaff 1 2 3),
      (0x63100000, .g1Id 1), (0x64100000, .g1Gen 1), (0x65312000, .g1Add 3 1 2), (0x66312000, .g1Sub 3 1 2),
      (0x67210000, .g1Neg 2 1), (0x68210000, .g1Dbl 2 1), (0x69213000, .g1Mul 2 1 3),
      (0x6A213000, .g1Mulu 2 1 3), (0x6B210000, .g1Mulmx 2 1), (0x6C123000, .g1Eq 1 2 3),
      (0x6D120000, .g1Isid 1 2), (0x6D120001, .g1Oncurve 1 2), (0x6D120002, .g1Insub 1 2),
      (0x6D120003, .g1Valid 1 2), (0x6E210000, .g1Clrcof 2 1), (0x6F210000, .g1Phi 2 1)]) = true := by decide

/-- Words printed in the instruction rules (R358 to R377). -/
theorem test_decodeG2 :
    decodes ([
      (0x70120000, .g2Mov 1 2), (0x71123400, .g2Pack 1 2 3 4), (0x72123000, .g2Getaff 1 2 3),
      (0x73100000, .g2Id 1), (0x74100000, .g2Gen 1), (0x75312000, .g2Add 3 1 2), (0x76312000, .g2Sub 3 1 2),
      (0x77210000, .g2Neg 2 1), (0x78210000, .g2Dbl 2 1), (0x79213000, .g2Mul 2 1 3),
      (0x7A213000, .g2Mulu 2 1 3), (0x7B210000, .g2Mulmx 2 1), (0x7C123000, .g2Eq 1 2 3),
      (0x7D120000, .g2Isid 1 2), (0x7D120001, .g2Oncurve 1 2), (0x7D120002, .g2Insub 1 2),
      (0x7D120003, .g2Valid 1 2), (0x7E210000, .g2Clrcof 2 1), (0x7F210000, .g2Psi 2 1),
      (0x7F210001, .g2Psi2 2 1)]) = true := by decide

/-- Words printed in the instruction rules (R292 to R408). -/
theorem test_decodeCyclotomicAndPairing :
    decodes ([
      (0x80210000, .tCycsqr 2 1), (0x81213000, .tCycexp 2 1 3), (0x82210000, .tFinalexp 2 1),
      (0x83123000, .pairMl 1 2 3), (0x84123000, .pair 1 2 3)]) = true := by decide

/-- Words printed in the instruction rules (R430 to R436). -/
theorem test_decodeHashToCurve :
    decodes ([
      (0x90012000, .h2cDst 1 2), (0x91123400, .h2cXmd 1 2 3 4), (0x92123400, .h2cH2f 1 2 3 4),
      (0x93120000, .h2cSwu 1 2), (0x94210000, .h2cIso 2 1), (0x95123000, .h2cMap 1 2 3),
      (0x96123000, .h2cHash 1 2 3)]) = true := by decide

/-- Words printed in the instruction rules (R454 to R461). -/
theorem test_decodeBls :
    decodes ([
      (0xA0100000, .blsPk 1 0), (0xA1120340, .blsSign 1 2 0 3 4), (0xA2102000, .blsSignp 1 0 2),
      (0xA3111200, .blsVerify 1 1 1 2), (0xA4111340, .blsVerifyb 1 1 1 3 4), (0xA5012000, .blsAggpk 0 1 2),
      (0xA6012000, .blsAggsig 0 1 2), (0xA7114230, .blsVerifyn 1 1 4 2 3 0)]) = true := by decide

/-- Words printed in the instruction rules (R154 to R159). -/
theorem test_decodeScalar :
    decodes ([
      (0xB0120000, .kMov 1 2), (0xB1300025, .kLi 3 0x25), (0xB2123000, .kLd 1 2 3), (0xB3023000, .kLdsk 0 2 3),
      (0xB4120040, .kSt 1 2 0x40), (0xB5100000, .kValid 1 0)]) = true := by decide

/-- Words printed in the instruction rules (R335 to R383). -/
theorem test_decodePointMemory :
    decodes ([
      (0xC0120000, .g1Ldc 1 2 0), (0xC1120000, .g1Ldu 1 2 0), (0xC2120000, .g1Stc 1 2 0),
      (0xC3120000, .g1Stu 1 2 0), (0xC4120000, .g2Ldc 1 2 0), (0xC5120000, .g2Ldu 1 2 0),
      (0xC6120000, .g2Stc 1 2 0), (0xC7120000, .g2Stu 1 2 0), (0xC8123000, .g1Staffn 1 2 3),
      (0xC9123000, .g2Staffn 1 2 3), (0xCA100004, .g1Precomp 1 4), (0xCB100004, .g2Precomp 1 4)]) = true := by decide

/-! Single steps, on the values the instruction rules print. -/

/-- A state just started, everything else as after reset. -/
def go : State := { State.reset with status := .busy }

/-- Whether an instruction answers a next state with a property. -/
def gives (i : Instr) (s : State) (p : State → Bool) : Bool :=
  match exec i s with
  | .next u => p u
  | .fault _ => false
  | .refused _ => false

/-- Whether an instruction takes an exception. -/
def raises (i : Instr) (s : State) (c : Cause) (info : Word) : Bool :=
  gives i s fun u => u.ecause == BitVec.ofNat 32 (causeCode c) && u.einfo == info && u.epc == s.pc &&
    u.status == .error && u.pc == s.pc

/-- `go` with bytes of DMEM. -/
def withBytes (addr : Nat) (bytes : List Byte) : State := setDmem go (writeBytes [] addr bytes)

def q (m n : Nat) : Fp2 := mkFp2 m n
def s3 (a b c : Nat) : Fp6 := ⟨q a 0, q b 0, q c 0⟩
def tOneW : Fp12 := ⟨one6, one6⟩
def tW : Fp12 := ⟨zero6, one6⟩
def t123 : Fp12 := ⟨s3 1 2 3, s3 4 5 6⟩

/-- R134 to R141. -/
theorem test_control :
    gives .halt { go with pc := 7 } (fun u => u.pc == 7 && u.status == .done && u.intrState == 1) &&
    gives .nop { go with pc := 3 } (fun u => u.pc == 4) &&
    raises (.fail 0x2A) { go with pc := 9 } .softwareFail 0x2A &&
    gives (.jal 15 5) { go with pc := 10 } (fun u => readR u 15 == 11 && u.pc == 15) &&
    gives (.jalr 0 15) (writeR go 15 11) (fun u => u.pc == 11 && readR u 0 == 0) &&
    gives (.jalr 15 15) (writeR { go with pc := 4 } 15 11) (fun u => u.pc == 11 && readR u 15 == 5) &&
    gives (.beq 1 2 0xFFFD) (writeR (writeR { go with pc := 8 } 1 4) 2 4) (fun u => u.pc == 5) &&
    gives (.beq 1 2 0xFFFD) (writeR (writeR { go with pc := 8 } 1 4) 2 5) (fun u => u.pc == 9) &&
    gives (.bne 1 0 4) (writeR { go with pc := 2 } 1 1) (fun u => u.pc == 6) &&
    gives (.bne 1 0 4) { go with pc := 2 } (fun u => u.pc == 3) &&
    gives (.bltu 3 4 2) (writeR (writeR { go with pc := 20 } 3 3) 4 8) (fun u => u.pc == 22) = true := by
  decide

/-- R142 to R149. -/
theorem test_integer :
    gives (.li 1 0x1234) go (fun u => readR u 1 == 0x1234) &&
    gives (.li 0 0x1234) go (fun u => readR u 0 == 0 && u.pc == 1) &&
    gives (.lui 2 0xABCD) go (fun u => readR u 2 == 0xABCD0000) &&
    gives (.addi 3 3 0xFFFF) (writeR go 3 5) (fun u => readR u 3 == 4) &&
    gives (.addi 3 3 0xFFFF) go (fun u => readR u 3 == 0xFFFFFFFF) &&
    gives (.add 1 2 3) (writeR (writeR go 2 0xFFFFFFFF) 3 2) (fun u => readR u 1 == 1) &&
    gives (.sub 1 2 3) (writeR (writeR go 2 3) 3 5) (fun u => readR u 1 == 0xFFFFFFFE) &&
    gives (.and 1 2 3) (writeR (writeR go 2 0xF0F0) 3 0xFF00) (fun u => readR u 1 == 0xF000) &&
    gives (.or 1 2 3) (writeR (writeR go 2 0xABCD0000) 3 0x1234) (fun u => readR u 1 == 0xABCD1234) &&
    gives (.xor 1 2 3) (writeR (writeR go 2 0xFF) 3 0x0F) (fun u => readR u 1 == 0xF0) = true := by decide

/-- R150 to R153, with the access that ends at the last byte of DMEM and the one past it (R74). -/
theorem test_integerMemory :
    gives (.lw 5 6 8) (writeR (withBytes 0x108 [0x11, 0x22, 0x33, 0x44]) 6 0x100)
      (fun u => readR u 5 == 0x11223344) &&
    gives (.sw 5 6 0xFFFC) (writeR (writeR go 6 0x104) 5 0xDEADBEEF)
      (fun u => u.dmem == [(0x100, 0xDE), (0x101, 0xAD), (0x102, 0xBE), (0x103, 0xEF)]) &&
    gives (.lbu 7 8 0) (writeR (withBytes 0x108 [0x11]) 8 0x108) (fun u => readR u 7 == 0x11) &&
    gives (.sb 7 8 3) (writeR (writeR go 8 0x200) 7 0x1FF) (fun u => u.dmem == [(0x203, 0xFF)]) &&
    gives (.lw 5 6 0) (writeR go 6 65532) (fun u => u.pc == 1) &&
    raises (.lw 5 6 0) (writeR go 6 65533) .dmemRange 65533 &&
    raises (.sw 5 6 0xFFFF) go .dmemRange 0xFFFFFFFF = true := by decide

/-- R154 to R159. -/
theorem test_scalar :
    gives (.kMov 1 2) (writeK go 2 37) (fun u => readK u 1 == 37) &&
    gives (.kLi 3 37) go (fun u => readK u 3 == 37) &&
    gives (.kLd 1 2 3) (writeR (writeR (withBytes 0x40 [1, 0]) 2 0x40) 3 2) (fun u => readK u 1 == 256) &&
    raises (.kLdsk 0 2 3) (writeR (writeR go 2 0x40) 3 32) .scalarOutOfRange 0 &&
    gives (.kSt 1 2 64) (writeK go 1 256) (fun u => u.dmem == [(0x5E, 1)]) &&
    gives (.kValid 1 0) (writeK go 0 37) (fun u => readR u 1 == 1) &&
    gives (.kValid 1 0) (writeR go 1 5) (fun u => readR u 1 == 0) = true := by decide +kernel

/-- R187 to R199. -/
theorem test_fp :
    gives (.fLd 3 1 48) (withBytes 0x5F [9]) (fun u => readF u 3 == toFp 9) &&
    raises (.fLd 3 1 0) (withBytes 0 (i2osp fieldP 48)) .nonCanonicalField 0 &&
    gives (.fSt 3 2 0) (writeR (writeF go 3 (toFp (fieldP - 1))) 2 0x100)
      (fun u => (u.dmem.take 2, u.dmem.length) == ([(0x100, 0x1A), (0x101, 0x01)], 48)) &&
    gives (.fLdr 0 1 2) (writeR (writeR (withBytes 0 (List.replicate 48 0xFF)) 1 0) 2 48)
      (fun u => (readF u 0).val ==
        0x15f65ec3fa80e4935c071a97a256ec6d77ce5853705257455f48985753c758baebf4000bc40c0002760900000002fffc) &&
    gives (.fAdd 3 1 2) (writeF (writeF go 1 (toFp (fieldP - 1))) 2 (toFp 2)) (fun u => readF u 3 == toFp 1) &&
    gives (.fSub 3 1 2) (writeF (writeF go 1 (toFp 3)) 2 (toFp 5)) (fun u => (readF u 3).val == fieldP - 2) &&
    gives (.fNeg 2 1) (writeF go 1 (toFp 1)) (fun u => (readF u 2).val == fieldP - 1) &&
    gives (.fMul 3 1 1) (writeF go 1 (toFp (fieldP - 1))) (fun u => readF u 3 == toFp 1) &&
    gives (.fSqr 2 1) (writeF go 1 (toFp (fieldP - 3))) (fun u => readF u 2 == toFp 9) &&
    gives (.fInv 2 1) (writeF go 1 (toFp 2)) (fun u => (readF u 2).val == (fieldP + 1) / 2) &&
    gives (.fDiv 3 1 2) (writeF (writeF go 1 (toFp 5)) 2 (toFp 7)) (fun u => fmul (readF u 3) (toFp 7) == toFp 5) &&
    gives (.fPow 2 1 3) (writeK (writeF go 1 (toFp 2)) 3 37) (fun u => (readF u 2).val == 0x2000000000) &&
    gives (.fSqrt 2 1 4) (writeF go 1 (toFp 16)) (fun u => readF u 2 == toFp 4 && readR u 4 == 1) &&
    gives (.fSqrt 2 1 4) (writeF (writeF go 2 (toFp 7)) 1 (toFp (fieldP - 1)))
      (fun u => readF u 2 == toFp 7 && readR u 4 == 0) = true := by decide +kernel

/-- R218 to R230. -/
theorem test_fp2 :
    gives (.qFrob 1 2 1) (writeQ go 2 (q 3 5)) (fun u => readQ u 1 == q 3 (fieldP - 5)) &&
    gives (.qSgn0 1 2) (writeQ go 2 (q 1 0)) (fun u => readR u 1 == 1) &&
    gives (.qMul 3 1 2) (writeQ (writeQ go 1 (q 1 2)) 2 (q 3 4)) (fun u => readQ u 3 == q (fieldP - 5) 10) &&
    gives (.qSqr 2 1) (writeQ go 1 (q 3 4)) (fun u => readQ u 2 == q (fieldP - 7) 24) &&
    gives (.qInv 2 1) (writeQ go 1 (q 1 1))
      (fun u => readQ u 2 == q ((fieldP + 1) / 2) ((fieldP - 1) / 2)) &&
    gives (.qDiv 3 1 2) (writeQ (writeQ go 1 (q (fieldP - 5) 10)) 2 (q 3 4)) (fun u => readQ u 3 == q 1 2) &&
    gives (.qPow 2 1 3) (writeK (writeQ go 1 (q 1 1)) 3 37)
      (fun u => readQ u 2 == q (fieldP - 0x40000) (fieldP - 0x40000)) &&
    gives (.qSqrt 2 1) (writeQ go 1 (q 3 4)) (fun u => readQ u 2 == q (fieldP - 2) (fieldP - 1)) &&
    gives (.qSqrt 2 1) (writeQ go 1 (q (fieldP - 1) 0)) (fun u => readQ u 2 == q 0 (fieldP - 1)) &&
    raises (.qSqrt 2 1) (writeQ go 1 (q 1 1)) .noDivisor 0 && raises (.qSqrt 2 1) go .noInverse 0 &&
    gives (.qMulnr 2 1) (writeQ go 1 (q 3 5)) (fun u => readQ u 2 == q (fieldP - 2) 8) = true := by
  decide +kernel

/-- R248 to R259. -/
theorem test_fp6 :
    gives (.sMul1 1 2 3) (writeQ (writeS go 2 (s3 1 2 3)) 3 (q 0 1))
      (fun u => readS u 1 == ⟨q (fieldP - 3) 3, q 0 1, q 0 2⟩) &&
    gives (.sMul01 1 2 3 4) (writeQ (writeQ (writeS go 2 (s3 1 2 3)) 3 (q 4 0)) 4 (q 5 0))
      (fun u => readS u 1 == ⟨q 19 15, q 13 0, q 22 0⟩) &&
    gives (.sMul 3 1 2) (writeS (writeS go 1 (s3 1 2 3)) 2 (s3 4 5 6))
      (fun u => readS u 3 == ⟨q 31 27, q 31 18, q 28 0⟩) &&
    gives (.sSqr 2 1) (writeS go 1 (s3 1 2 3)) (fun u => readS u 2 == ⟨q 13 12, q 13 9, q 10 0⟩) &&
    gives (.sDiv 3 1 2) (writeS (writeS go 1 ⟨q 31 27, q 31 18, q 28 0⟩) 2 (s3 4 5 6))
      (fun u => readS u 3 == s3 1 2 3) &&
    gives (.sPow 2 1 3) (writeK (writeS go 1 ⟨q 0 0, q 1 0, q 0 0⟩) 3 37)
      (fun u => readS u 2 == ⟨q 0 0, q (fieldP - 64) 0, q 0 0⟩) &&
    gives (.sMulnr 2 1) (writeS go 1 (s3 1 2 3)) (fun u => readS u 2 == ⟨q 3 3, q 1 0, q 2 0⟩) = true := by
  decide +kernel

/-- R280 to R293. -/
theorem test_fp12 :
    gives (.tFrob 1 2 6) (writeT go 2 tW) (fun u => readT u 1 == ⟨zero6, s3 (fieldP - 1) 0 0⟩) &&
    gives (.tFrob 1 2 2) (writeT go 2 tW) (fun u => readT u 1 == ⟨zero6, s3 (beta.val + 1) 0 0⟩) &&
    gives (.tMul 3 1 2) (writeT (writeT go 1 t123) 2 ⟨s3 7 8 9, s3 10 11 12⟩)
      (fun u => readT u 3 == ⟨⟨q 212 205, q 215 153, q 212 72⟩, ⟨q 188 150, q 188 90, q 182 0⟩⟩) &&
    gives (.tSqr 2 1) (writeT go 1 t123)
      (fun u => readT u 2 == ⟨⟨q 86 85, q 89 69, q 86 36⟩, ⟨q 62 54, q 62 36, q 56 0⟩⟩) &&
    gives (.tDiv 3 1 2) (writeT (writeT go 1 ⟨⟨q 0 0, q 1 0, q 0 0⟩, zero6⟩) 2 tW) (fun u => readT u 3 == tW) &&
    gives (.tPow 2 1 3) (writeK (writeT go 1 tW) 3 37)
      (fun u => readT u 2 == ⟨zero6, ⟨q 0 (fieldP - 8), q 0 0, q 0 0⟩⟩) &&
    gives (.tMul014 1 2 3 4 5) (writeQ (writeQ (writeQ (writeT go 2 t123) 3 (q 7 0)) 4 (q 8 0)) 5 (q 9 0))
      (fun u => readT u 1 == ⟨⟨q 76 69, q 76 54, q 73 0⟩, ⟨q 103 75, q 76 0, q 100 0⟩⟩) &&
    gives (.tCycsqr 2 1) (writeT go 1 tOneW) (fun u => readT u 2 == ⟨s3 1 3 0, s3 2 0 0⟩) &&
    gives (.tCycexp 2 1 3) (writeK (writeT go 1 tOneW) 3 3) (fun u => readT u 2 == ⟨s3 1 5 0, s3 3 3 0⟩) = true := by
  decide +kernel

/-- R317 to R338. -/
theorem test_g1 :
    gives (.g1Pack 1 2 3 4) (writeF (writeF go 3 (toFp 4)) 4 (toFp 2)) (fun u => readG u 1 == .aff (toFp 0) (toFp 2)) &&
    gives (.g1Pack 1 2 3 4) (writeG (writeF go 3 (toFp 4)) 1 gen1) (fun u => readG u 1 == .O) &&
    raises (.g1Getaff 1 2 3) go .noInverse 0 &&
    gives (.g1Sub 3 1 1) (writeG go 1 gen1) (fun u => readG u 3 == .O) &&
    gives (.g1Dbl 2 1) (writeG go 1 gen1) (fun u => (compress1 (readG u 2)).take 4 == [0xA5, 0x72, 0xCB, 0xEA]) &&
    gives (.g1Add 3 1 2) (writeG (writeG go 1 (mul1 gen1 2)) 2 gen1) (fun u => readG u 3 == .aff
      (toFp 0x09ece308f9d1f0131765212deca99697b112d61f9be9a5f1f3780a51335b3ff981747a0b2ca2179b96d2c0c9024e5224)
      (toFp 0x032b80d3a6f5b09f8a84623389c5f80ca69a0cddabc3097f9d9c27310fd43be6e745256c634af45ca3473b0590ae30d1)) &&
    gives (.g1Oncurve 1 2) (writeG go 2 (.aff (toFp 1) (toFp 1))) (fun u => readR u 1 == 0 && u.pc == 1) &&
    gives (.g1Insub 1 2) (writeG (writeR go 1 7) 2 (.aff (toFp 0) (toFp 2))) (fun u => readR u 1 == 0) &&
    raises (.g1Ldu 1 2 0) (withBytes 0 (i2osp 1 48 ++ i2osp 1 48)) .notOnCurve 0 &&
    raises (.g1Ldc 1 2 0) (withBytes 0 [0xE0]) .badFlags 0 &&
    gives (.g1Staffn 1 2 3) (writeG (writeR (writeR go 1 0x200) 3 2) 2 gen1)
      (fun u => u.dmem.getLast? == some (0x260, 0x40) && cellsRead u.dmem 0x200 == 0x17) &&
    raises (.g1Staffn 1 15 3) (writeR go 3 2) .regRange 0 = true := by decide +kernel

/-- R359 to R380. -/
theorem test_g2 :
    gives (.g2Pack 1 2 3 4) (writeQ (writeQ (writeQ go 2 (q 2 0)) 3 (q 2 0)) 4 (q 2 0))
      (fun u => readH u 1 == .aff (q 1 0) (q 1 0)) &&
    gives (.g2Sub 3 1 1) (writeH go 1 gen2) (fun u => readH u 3 == .O) &&
    gives (.g2Neg 2 1) (writeH go 1 gen2) (fun u => (compress2 (readH u 2)).take 4 == [0xB3, 0xE0, 0x2B, 0x60]) &&
    gives (.g2Dbl 2 1) (writeH go 1 gen2) (fun u => (compress2 (readH u 2)).take 4 == [0xAA, 0x4E, 0xDE, 0xF9]) &&
    gives (.g2Oncurve 1 2) (writeH go 2 (.aff (q 1 0) (q 1 0))) (fun u => readR u 1 == 0) &&
    raises (.g2Ldc 1 2 0) (withBytes 0 [0x80]) .notOnCurve 0 &&
    raises (.g2Ldc 1 2 0) (withBytes 0 [0x40]) .badFlags 0 = true := by decide +kernel

/-- The ASCII bytes of the expander example's tag, QUUX-V01-CS02-with-expander-SHA256-128. -/
def xmdTag : List Byte :=
  [0x51, 0x55, 0x55, 0x58, 0x2D, 0x56, 0x30, 0x31, 0x2D, 0x43, 0x53, 0x30, 0x32, 0x2D, 0x77, 0x69,
   0x74, 0x68, 0x2D, 0x65, 0x78, 0x70, 0x61, 0x6E, 0x64, 0x65, 0x72, 0x2D, 0x53, 0x48, 0x41, 0x32,
   0x35, 0x36, 0x2D, 0x31, 0x32, 0x38]

/-- The digest an oversize tag is replaced by, as spec/97_derived_vectors_2.md L2.12 prints it. -/
theorem test_sha256 :
    os2ip (sha256 (oversizeTag ++ List.replicate 300 0x61)) =
      0xacadd575dbfef9e83b2594d0f9d0acf0779120c7ed4cf71a01bd40dba9203523 := by decide +kernel

/-- The exception of `FAIL 0x2A` as the host finds it (R44, R46, R476). -/
theorem test_hostReadsAnException :
    gives (.fail 0x2A) go (fun u => hostRead u 0x04 == 3 && hostRead u 0x0C == 0x14 && hostRead u 0x14 == 0x2A &&
      hostRead u 0x1C == 2) = true := by decide

/-- R430, R431, with the expander output R431 prints for the message "abc". -/
theorem test_hash :
    gives (.h2cDst 1 2) (writeR (writeR (withBytes 0x100 [0x74, 0x61, 0x67]) 1 0x100) 2 3)
      (fun u => u.dstBuf == [0x74, 0x61, 0x67]) &&
    raises (.h2cDst 1 2) (writeR go 2 2049) .badLength 0 &&
    gives (.h2cXmd 1 2 3 4)
      (writeR (writeR (setTag (withBytes 0x100 [0x61, 0x62, 0x63]) xmdTag)
        2 0x100) 3 3 |> fun s => writeR s 4 32)
      (fun u => readBytes u.dmem 0 8 == [0xd8, 0xcc, 0xab, 0x23, 0xb5, 0x98, 0x5c, 0xce]) = true := by decide +kernel

/-- R454 to R461: the checks that come before any cryptographic work, and a verification that answers 0. -/
theorem test_bls :
    raises (.blsPk 1 0) go .scalarOutOfRange 0 && raises (.blsAggpk 0 1 2) go .emptyList 0 &&
    raises (.blsAggpk 0 1 2) (writeR go 2 16) .regRange 0 &&
    raises (.blsVerifyn 1 1 4 2 3 0) (writeR (writeR go 2 1) 3 2) .lengthMismatch 0 &&
    gives (.blsVerify 1 1 1 2) (writeR go 1 9) (fun u => readR u 1 == 0 && u.status == .busy) &&
    gives (.blsPk 1 0) (writeK go 0 1) (fun u => readG u 1 == gen1) &&
    raises (.pairMl 1 2 3) go .noPairing 0 = true := by decide +kernel

/-- An instruction word placed where the next step fetches it runs (R100, R113), and a zero word is illegal (R107). -/
theorem test_step :
    (match step (State.reset.withFetchWord 32 0x10101234) with
     | .next u => readR u 1 == 0x1234 && u.pc == 1 && u.status == .busy
     | .fault _ => false
     | .refused _ => false) &&
    (match step (State.reset.withFetchWord 32 0) with
     | .next u => u.ecause == 0x10 && u.status == .error
     | .fault _ => false
     | .refused _ => false) = true := by decide

/-! For each statement with hypotheses, states and operands that meet them, clause by clause at the boundary values.
`there` is the address a memory form with base `r1` and offset 0 accesses in a state. -/

def there (s : State) : Word := effAddr s 1 0

/-- `go` about to run one word at index 0. -/
def running (w : Word) : State := placeWord go w

theorem witness_DecodeInvertsEncode :
    (Instr.qGet 15 15 1).WellFormed = true ∧ (Instr.sGet 15 15 2).WellFormed = true ∧
    (Instr.tGet 15 15 1).WellFormed = true ∧ (Instr.blsVerifyn 15 15 15 15 15 15).WellFormed = true := by decide

theorem witness_DecoderAcceptsExactlyTheOpcodeMap :
    decode 0x32120001 = .ok (.qGet 1 2 1) ∧ (0xFF00FFF0, 0x32000000) ∈ opcodeTable ∧
    (0x32120001 : Word) &&& 0xFF00FFF0 = 0x32000000 := by decide

theorem witness_StepRunsDecodedInstruction :
    (running 0x02000000).status = .busy ∧ (running 0x02000000).pc.toNat < Config.imemWords ∧
    decode (cellsRead (running 0x02000000).imem (running 0x02000000).pc.toNat) = .ok .nop := by decide

theorem witness_FetchAndDecodeFaults :
    (go.status = .busy ∧ Config.imemWords ≤ ({ go with pc := 1024 } : State).pc.toNat) ∧
    (({ go with pc := 1023 } : State).pc.toNat < Config.imemWords ∧
      ∀ i, decode (cellsRead go.imem 1023) ≠ .ok i) :=
  ⟨by decide, by decide, fun i h => by cases h⟩

theorem witness_EveryStepAnswersANextState : State.reset.status ≠ .busy := by decide

theorem witness_RunsEndByHaltOrPreciseException :
    (∃ u, step (running 0x02000000) = .next u ∧ u.status = .busy) ∧
    (∃ u, step (running 0x01000000) = .next u ∧ u.status = .done) ∧
    (∃ u, step (running 0x0300002A) = .next u ∧ u.status = .error ∧ u.einfo = 0x2A) :=
  ⟨⟨_, rfl, rfl⟩, ⟨_, rfl, rfl⟩, ⟨_, rfl, rfl, rfl⟩⟩

theorem witness_InstructionsLeaveTheHostSideAlone :
    (∃ u, exec .nop go = .next u) ∧ ∀ b c, Instr.nop ≠ .h2cDst b c :=
  ⟨⟨_, rfl⟩, fun _ _ h => by cases h⟩

theorem running_inv (w : Word) (h : Cells.wf Config.imemWords (running w).imem) : Inv (running w) where
  dmem := (by decide : Memory.wf go.dmem)
  imem := h
  tag := (by decide : go.dstBuf.length ≤ Config.dstMax)
  zeroReg := rfl
  intrEnable := (by decide : go.intrEnable &&& 3 = go.intrEnable)
  intrState := (by decide : go.intrState &&& 3 = go.intrState)
  cause := .inl rfl
  record := ⟨fun _ => ⟨rfl, rfl, rfl⟩, fun h => by cases h⟩

theorem witness_EveryStepKeepsTheInvariant :
    Inv (running 0x01000000) ∧ ∃ u, step (running 0x01000000) = .next u ∧ u.status = .done :=
  ⟨running_inv _ (by decide), _, rfl, rfl⟩

theorem witness_HostWritesKeepTheInvariant : Inv (running 0x01000000) :=
  running_inv _ (by decide)

theorem witness_ByteStringsAreBigEndian : (255 < 256 ^ 1) ∧ 0 < 256 ^ 0 := by decide

theorem witness_IntegerLoads :
    (there (writeR go 1 65532)).toNat + 4 ≤ Config.dmemBytes ∧
    Config.dmemBytes < (there (writeR go 1 65533)).toNat + 4 ∧
    (there (writeR go 1 65535)).toNat < Config.dmemBytes ∧
    Config.dmemBytes ≤ (there (writeR go 1 65536)).toNat := by decide

theorem witness_IntegerStores :
    Memory.wf go.dmem ∧ (there (writeR go 1 65532)).toNat + 4 ≤ Config.dmemBytes ∧
    Config.dmemBytes < (there (writeR go 1 65533)).toNat + 4 ∧
    (there (writeR go 1 65535)).toNat < Config.dmemBytes ∧
    Config.dmemBytes ≤ (there (writeR go 1 65536)).toNat := by decide

theorem witness_ScalarMovesStoreAndRangeTest :
    Memory.wf go.dmem ∧ (there (writeR go 1 65504)).toNat + 32 ≤ Config.dmemBytes ∧
    Config.dmemBytes < (there (writeR go 1 65505)).toNat + 32 := by decide

/-- `go` with the `n` big-endian bytes of `v` at address 0, their length in `r2`. -/
def loaded (v n : Nat) : State := writeR (withBytes 0 (i2osp v n)) 2 (BitVec.ofNat 32 n)

/-- The integer `r[2]` bytes at `r[1]` make. -/
def operand (s : State) : Nat := intAt s (readR s 1) (readR s 2).toNat

theorem witness_ScalarLoads :
    Fits (readR (loaded 0 33) 1) (readR (loaded 0 33) 2).toNat ∧
    ([2 ^ 256 - 1, 2 ^ 256, 1, orderR, 0, orderR + 1].all fun v => operand (loaded v 33) == v) = true ∧
    ¬Fits (readR (writeR (writeR go 1 65536) 2 1) 1) (readR (writeR (writeR go 1 65536) 2 1) 2).toNat := by
  refine ⟨.inr (by decide +kernel), ?_, ?_⟩
  · decide +kernel
  · unfold Fits; decide

theorem witness_FieldLoadsAndStore :
    ((there (writeR go 1 65488)).toNat + 48 ≤ Config.dmemBytes ∧ Memory.wf go.dmem) ∧
    (intAt (loaded (fieldP - 1) 48) (there (loaded 0 48)) 48 = fieldP - 1 ∧
      intAt (loaded fieldP 48) (there (loaded 0 48)) 48 = fieldP) ∧
    Config.dmemBytes < (there (writeR go 1 65489)).toNat + 48 ∧
    Fits (readR (writeR go 1 65536) 1) (readR (writeR go 1 65536) 2).toNat ∧
    ¬Fits (readR (writeR (writeR go 1 65536) 2 1) 1) (readR (writeR (writeR go 1 65536) 2 1) 2).toNat :=
  ⟨by decide, by decide +kernel, by decide, .inl rfl, by unfold Fits; decide⟩

theorem witness_FieldInverseAndQuotient :
    (readF (writeF go 1 (toFp 1)) 1).val ≠ 0 ∧ (readF go 1).val = 0 := by decide +kernel

theorem witness_FieldSquareRoot :
    (∃ y : Fp, y.val * y.val % fieldP = (readF (writeF go 1 (toFp 16)) 1).val) ∧
    (∃ y : Fp, y.val * y.val % fieldP = (readF go 1).val) ∧
    ¬∃ y : Fp, y.val * y.val % fieldP = (readF (writeF go 1 (toFp (fieldP - 1))) 1).val :=
  ⟨⟨toFp 4, by decide +kernel⟩, ⟨toFp 0, by decide +kernel⟩, no_root_of_fpow _ (by decide +kernel)⟩

theorem witness_QuadraticInverseAndQuotient :
    readQ (writeQ go 1 (q 0 1)) 1 ≠ zero2 ∧ readQ go 1 = zero2 := by decide +kernel

theorem witness_QuadraticSquareRoot :
    (readQ (writeQ go 1 (q 3 4)) 1 ≠ zero2 ∧ ∃ y, qMul y y = readQ (writeQ go 1 (q 3 4)) 1) ∧
    (readQ (writeQ go 1 (q 1 1)) 1 ≠ zero2 ∧ ¬∃ y, qMul y y = readQ (writeQ go 1 (q 1 1)) 1) ∧
    readQ go 1 = zero2 :=
  ⟨⟨by decide +kernel, q 2 1, by decide +kernel⟩, ⟨by decide +kernel, no_root2_of_fpow _ (by decide +kernel)⟩,
    by decide +kernel⟩

theorem witness_TowerInversesAndQuotients :
    readS (writeS go 1 (s3 0 1 0)) 1 ≠ zero6 ∧ readS go 1 = zero6 ∧ readT (writeT go 1 tW) 1 ≠ zero12 ∧
    readT go 1 = zero12 := by decide +kernel

/-- The values of `z` in the loop of `T.CYCEXP`, by how many bits it has passed. -/
def cycTrace (x : Fp12) (n : Nat) : Nat → Fp12
  | 0 => one12
  | j + 1 => if n.testBit (255 - j) then tMul (tCycsqr (cycTrace x n j)) x else tCycsqr (cycTrace x n j)

theorem witness_CyclotomicOperations (x : Fp12) (n : Nat) :
    repMul tMul one12 one12 (fieldP ^ 4 - fieldP ^ 2 + 1) = one12 ∧
    ∃ z : Nat → Fp12, z 256 = one12 ∧
      ∀ i < 256, z i = if n.testBit i then tMul (tCycsqr (z (i + 1))) x else tCycsqr (z (i + 1)) := by
  constructor
  · have h : ∀ m, repMul tMul one12 one12 m = one12 := by
      intro m
      induction m with
      | zero => rfl
      | succ m ih => rw [repMul, ih]; decide +kernel
    exact h _
  · refine ⟨fun i => cycTrace x n (256 - i), by simp [cycTrace], fun i hi => ?_⟩
    have e : 256 - i = (255 - i) + 1 := by omega
    have e1 : 256 - (i + 1) = 255 - i := by omega
    have e2 : 255 - (255 - i) = i := by omega
    simp only [e, e1, cycTrace, e2]

theorem witness_FinalExponentiationIsThePower :
    readT (writeT go 1 t123) 1 ≠ zero12 ∧ readT go 1 = zero12 := by decide +kernel

theorem witness_PointMovesAndCoordinates :
    (readF go 4).val = 0 ∧ (readF (writeF go 4 (toFp 2)) 4).val ≠ 0 ∧ readG go 3 = .O ∧
    (∃ x y, readG (writeG go 3 gen1) 3 = .aff x y) ∧
    readQ go 4 = zero2 ∧ readQ (writeQ go 4 (q 0 1)) 4 ≠ zero2 ∧ readH go 3 = .O ∧
    ∃ x y, readH (writeH go 3 gen2) 3 = .aff x y :=
  ⟨by decide +kernel, by decide +kernel, rfl, ⟨_, _, rfl⟩, by decide +kernel, by decide +kernel, rfl, ⟨_, _, rfl⟩⟩

theorem mulLoop_fuel {F : Type} [DecidableEq F] (ops : FieldOps F) (f1 f2 n : Nat) (h1 : n < 2 ^ f1) (h2 : n < 2 ^ f2)
    (acc d : Point F) : mulLoop ops f1 n acc d = mulLoop ops f2 n acc d := by
  induction f1 generalizing f2 n acc d with
  | zero =>
    have : n = 0 := by simpa using h1
    subst this
    cases f2 <;> simp [mulLoop]
  | succ f1 ih =>
    cases f2 with
    | zero =>
      have : n = 0 := by simpa using h2
      subst this
      simp [mulLoop]
    | succ f2 =>
      by_cases hn : n = 0
      · simp [mulLoop, hn]
      · simp only [mulLoop, hn, if_false]
        exact ih f2 (n / 2) (by rw [pow_succ] at h1; omega) (by rw [pow_succ] at h2; omega) _ _

/-- A loop of R305 exists over every field. -/
theorem exists_loop {F : Type} [DecidableEq F] (ops : FieldOps F) :
    ∃ loop : Point F → Point F → Nat → Point F, IsMulLoop ops loop := by
  refine ⟨fun acc d n => mulLoop ops n n acc d, fun _ _ => rfl, fun acc d n hn => ?_⟩
  obtain ⟨m, rfl⟩ : ∃ m, n = m + 1 := ⟨n - 1, by omega⟩
  show mulLoop ops (m + 1) (m + 1) acc d = _
  rw [mulLoop, if_neg (by omega)]
  exact mulLoop_fuel ops _ _ _ (lt_of_le_of_lt (by omega) Nat.lt_two_pow_self) Nat.lt_two_pow_self _ _

theorem witness_PointMultiplesFollowTheLoop :
    (∃ loop1, IsMulLoop opsFp loop1) ∧ ∃ loop2, IsMulLoop opsFp2 loop2 := ⟨exists_loop _, exists_loop _⟩

theorem witness_EndomorphismsAndCofactors :
    readG go 1 = .O ∧ (∃ x y, readG (writeG go 1 gen1) 1 = .aff x y) ∧ readH go 1 = .O ∧
    ∃ x y, readH (writeH go 1 gen2) 1 = .aff x y := ⟨rfl, ⟨_, _, rfl⟩, rfl, _, _, rfl⟩

theorem witness_PointStores :
    Memory.wf go.dmem ∧
    ((there (writeR go 1 65488)).toNat + 48 ≤ Config.dmemBytes ∧
      Config.dmemBytes < (there (writeR go 1 65489)).toNat + 48) ∧
    ((there (writeR go 1 65440)).toNat + 96 ≤ Config.dmemBytes ∧
      Config.dmemBytes < (there (writeR go 1 65441)).toNat + 96) ∧
    ((there (writeR go 1 65344)).toNat + 192 ≤ Config.dmemBytes ∧
      Config.dmemBytes < (there (writeR go 1 65345)).toNat + 192) ∧
    (16 < (15 : RegIdx).val + (readR (writeR go 3 2) 3).toNat ∧
      (15 : RegIdx).val + (readR (writeR go 3 1) 3).toNat ≤ 16) ∧
    Fits (readR (writeR go 1 65440) 1) (96 * 1) ∧ ¬Fits (readR (writeR go 1 65441) 1) (96 * 1) ∧
    Fits (readR (writeR go 1 65344) 1) (192 * 1) ∧ ¬Fits (readR (writeR go 1 65345) 1) (192 * 1) ∧
    Fits (readR (writeR go 1 0xFFFFFFFF) 1) (96 * 0) :=
  ⟨by decide, by decide, by decide, by decide, by decide, .inr (by decide), by unfold Fits; decide, .inr (by decide),
    by unfold Fits; decide, .inl rfl⟩

theorem gen1_onCurve : OnCurve1 gen1 := (oncurve_iff _).1 (by decide +kernel)
theorem gen2_onCurve : OnCurve2 gen2 := (oncurve2_iff _).1 (by decide +kernel)
theorem gen1_inSubgroup : InSubgroup1 gen1 := (insub1_iff _).1 (by decide +kernel)
theorem gen2_inSubgroup : InSubgroup2 gen2 := (insub2_iff _).1 (by decide +kernel)

theorem witness_PointLoadsInvertTheEncodings :
    (OnCurve1 gen1 ∧ InSubgroup1 gen1 ∧ OnCurve2 gen2 ∧ InSubgroup2 gen2) ∧
    (OnCurve1 .O ∧ InSubgroup1 .O ∧ OnCurve2 .O ∧ InSubgroup2 .O) ∧
    ((there (loaded 0 48)).toNat + 192 ≤ Config.dmemBytes ∧
      intAt (loaded (codeC1 gen1) 48) (there (loaded 0 48)) 48 = codeC1 gen1 ∧
      intAt (loaded (codeU1 gen1) 96) (there (loaded 0 96)) 96 = codeU1 gen1 ∧
      intAt (loaded (codeC2 gen2) 96) (there (loaded 0 96)) 96 = codeC2 gen2 ∧
      intAt (loaded (codeU2 gen2) 192) (there (loaded 0 192)) 192 = codeU2 gen2) ∧
    intAt (loaded (codeC1 .O) 48) (there (loaded 0 48)) 48 = codeC1 .O ∧
    intAt (loaded (codeU1 .O) 96) (there (loaded 0 96)) 96 = codeU1 .O ∧
    intAt (loaded (codeC2 .O) 96) (there (loaded 0 96)) 96 = codeC2 .O ∧
    intAt (loaded (codeU2 .O) 192) (there (loaded 0 192)) 192 = codeU2 .O :=
  ⟨⟨gen1_onCurve, gen1_inSubgroup, gen2_onCurve, gen2_inSubgroup⟩, ⟨trivial, .inl rfl, trivial, .inl rfl⟩,
    by decide +kernel, by decide +kernel⟩

/-- Bytes at address 0 are what the loads read there. -/
theorem intAt_loaded (v n : Nat) (hv : os2ip (i2osp v n) = v) (hn : (i2osp v n).length = n)
    (hm : 0 + n ≤ Config.dmemBytes) : intAt (loaded v n) 0 n = v := by
  have h := readBytes_writeBytes Config.dmemBytes [] 0 (i2osp v n) (by rw [hn]; exact hm) (by decide)
  rw [hn] at h
  rw [intAt, bytesAt]
  refine (congrArg os2ip ?_).trans hv
  exact h

/-- The integers of 48 bytes that each check of R335 refuses: no compression flag; infinity with the sign flag, and
with a coordinate; `x = p`; `x = 1`, not on the curve; the point `(0, 2)`, not in the subgroup. -/
theorem witness_PointLoadsRefuse_compressed1 :
    (Nat.testBit 0 383 = false) ∧
    (Nat.testBit (7 * 2 ^ 381) 383 = true ∧ Nat.testBit (7 * 2 ^ 381) 382 = true ∧
      Nat.testBit (7 * 2 ^ 381) 381 = true) ∧
    (Nat.testBit (6 * 2 ^ 381 + 1) 382 = true ∧ (6 * 2 ^ 381 + 1) % 2 ^ 381 ≠ 0) ∧
    (Nat.testBit (4 * 2 ^ 381 + fieldP) 383 = true ∧ Nat.testBit (4 * 2 ^ 381 + fieldP) 382 = false ∧
      fieldP ≤ (4 * 2 ^ 381 + fieldP) % 2 ^ 381) ∧
    ((4 * 2 ^ 381 + 1) % 2 ^ 381 < fieldP ∧
      ¬∃ y : Fp, y.val * y.val % fieldP = (((4 * 2 ^ 381 + 1) % 2 ^ 381) ^ 3 + 4) % fieldP) ∧
    ((toFp 2).val * (toFp 2).val % fieldP = (((4 * 2 ^ 381) % 2 ^ 381) ^ 3 + 4) % fieldP ∧
      (Nat.testBit (4 * 2 ^ 381) 381 = true ↔ (fieldP - 1) / 2 < (toFp 2).val) ∧
      ¬InSubgroup1 (.aff (toFp ((4 * 2 ^ 381) % 2 ^ 381)) (toFp 2))) := by
  refine ⟨by decide +kernel, by decide +kernel, by decide +kernel, by decide +kernel, ⟨by decide +kernel, ?_⟩,
    by decide +kernel, by decide +kernel, ?_⟩
  · have e : (((4 * 2 ^ 381 + 1) % 2 ^ 381) ^ 3 + 4) % fieldP = (toFp 5).val := by decide +kernel
    rw [e]
    exact no_root_of_fpow (toFp 5) (by decide +kernel)
  · exact fun h => absurd ((insub1_iff _).2 h) (by decide +kernel)

/-- The same for R336. -/
theorem witness_PointLoadsRefuse_uncompressed1 :
    Nat.testBit (2 ^ 767) 767 = true ∧ Nat.testBit (2 ^ 765) 765 = true ∧
    (Nat.testBit (2 ^ 766 + 1) 766 = true ∧ (2 ^ 766 + 1) % 2 ^ 384 ≠ 0) ∧
    (2 ^ 766 + 2 ^ 384) / 2 ^ 384 % 2 ^ 381 ≠ 0 ∧
    fieldP ≤ (fieldP * 2 ^ 384) / 2 ^ 384 % 2 ^ 381 ∧ fieldP ≤ fieldP % 2 ^ 384 ∧
    ¬OnCurve1 (.aff (toFp 1) (toFp 1)) ∧
    (OnCurve1 (.aff (toFp 0) (toFp 2)) ∧ ¬InSubgroup1 (.aff (toFp 0) (toFp 2))) := by
  refine ⟨by decide +kernel, by decide +kernel, by decide +kernel, by decide +kernel, by decide +kernel,
    by decide +kernel, ?_, ?_, fun h => absurd ((insub1_iff _).2 h) (by decide +kernel)⟩
  · exact fun h => absurd ((oncurve_iff _).2 h) (by decide +kernel)
  · exact (oncurve_iff _).1 (by decide +kernel)

/-- A point of E2 outside G2, R373's `A2`. -/
def a2 : Point Fp2 := .aff (q 2 0)
  (q 0x18c6b864ae17dc9da64203ffefb966306425a7bc6aeb7c75247438372716284a4173830420cd476ba1a365b95bfcec38
    0x172e93db764a8400a7d5071b6b6f5de0da2f0f4a063119abca014006b7c40a2cfe291a1924e65db0d6d0fcfbf3bf3d5c)

theorem a2_onCurve : OnCurve2 a2 := (oncurve2_iff _).1 (by decide +kernel)

theorem a2_notInSubgroup : ¬InSubgroup2 a2 := fun h => absurd ((insub2_iff _).2 h) (by decide +kernel)

/-- The same for R378: `x = 0` has no point, `x = (2, 0)` with the sign of `A2` is not in G2. -/
theorem witness_PointLoadsRefuse_compressed2 :
    Nat.testBit 0 767 = false ∧ (Nat.testBit (7 * 2 ^ 765) 765 = true ∧ Nat.testBit (7 * 2 ^ 765) 766 = true) ∧
    (6 * 2 ^ 765 + 1) % 2 ^ 384 ≠ 0 ∧ (6 * 2 ^ 765 + 2 ^ 384) / 2 ^ 384 % 2 ^ 381 ≠ 0 ∧
    fieldP ≤ (4 * 2 ^ 765 + fieldP * 2 ^ 384) / 2 ^ 384 % 2 ^ 381 ∧ fieldP ≤ (4 * 2 ^ 765 + fieldP) % 2 ^ 384 ∧
    (¬∃ y : Fp2, OnCurve2 (.aff (mkFp2 0 0) y)) ∧
    (OnCurve2 a2 ∧ ¬InSubgroup2 a2 ∧ a2 = .aff (mkFp2 ((5 * 2 ^ 765 + 2) % 2 ^ 384)
      ((5 * 2 ^ 765 + 2) / 2 ^ 384 % 2 ^ 381)) (match a2 with | .aff _ y => y | .O => zero2) ∧
      (Nat.testBit (5 * 2 ^ 765 + 2) 765 = true ↔ signBit2 (match a2 with | .aff _ y => y | .O => zero2) = 1)) := by
  refine ⟨by decide +kernel, by decide +kernel, by decide +kernel, by decide +kernel, by decide +kernel,
    by decide +kernel, ?_, a2_onCurve, a2_notInSubgroup, by decide +kernel, by decide +kernel⟩
  rintro ⟨y, h⟩
  exact no_root2_of_fpow (q 4 4) (by decide +kernel) ⟨y, h.trans (by decide +kernel)⟩

/-- The same for R379. -/
theorem witness_PointLoadsRefuse_uncompressed2 :
    Nat.testBit (2 ^ 1535) 1535 = true ∧ Nat.testBit (2 ^ 1533) 1533 = true ∧
    (Nat.testBit (2 ^ 1534 + 1) 1534 = true ∧ (2 ^ 1534 + 1) % 2 ^ 384 ≠ 0) ∧
    fieldP ≤ (fieldP * 2 ^ 1152) / 2 ^ 1152 % 2 ^ 381 ∧ fieldP ≤ (fieldP * 2 ^ 768) / 2 ^ 768 % 2 ^ 384 ∧
    fieldP ≤ (fieldP * 2 ^ 384) / 2 ^ 384 % 2 ^ 384 ∧ fieldP ≤ fieldP % 2 ^ 384 ∧
    ¬OnCurve2 (.aff (mkFp2 1 0) (mkFp2 1 0)) ∧ (OnCurve2 a2 ∧ ¬InSubgroup2 a2) := by
  refine ⟨by decide +kernel, by decide +kernel, by decide +kernel, by decide +kernel, by decide +kernel,
    by decide +kernel, by decide +kernel, ?_, a2_onCurve, a2_notInSubgroup⟩
  exact fun h => absurd ((oncurve2_iff _).2 h) (by decide +kernel)

/-- The integers above are those of bytes a state can hold, and the ranges of the loads are met and missed. -/
theorem witness_PointLoadsRefuse :
    intAt (loaded (7 * 2 ^ 381) 48) 0 48 = 7 * 2 ^ 381 ∧ intAt (loaded (4 * 2 ^ 381 + 1) 48) 0 48 = 4 * 2 ^ 381 + 1 ∧
    intAt (loaded (5 * 2 ^ 765 + 2) 96) 0 96 = 5 * 2 ^ 765 + 2 ∧
    intAt (loaded (2 ^ 1534 + 1) 192) 0 192 = 2 ^ 1534 + 1 ∧ there (loaded 0 192) = 0 ∧
    (there (writeR go 1 65488)).toNat + 48 ≤ Config.dmemBytes ∧
    Config.dmemBytes < (there (writeR go 1 65489)).toNat + 48 ∧
    (there (writeR go 1 65440)).toNat + 96 ≤ Config.dmemBytes ∧
    Config.dmemBytes < (there (writeR go 1 65441)).toNat + 96 ∧
    (there (writeR go 1 65344)).toNat + 192 ≤ Config.dmemBytes ∧
    Config.dmemBytes < (there (writeR go 1 65345)).toNat + 192 := by
  refine ⟨intAt_loaded _ _ ?_ ?_ ?_, intAt_loaded _ _ ?_ ?_ ?_, intAt_loaded _ _ ?_ ?_ ?_,
    intAt_loaded _ _ ?_ ?_ ?_, ?_⟩ <;> decide +kernel

theorem witness_PairingsRunOnValidPoints :
    ¬Pairable .O gen2 ∧ Pairable gen1 gen2 ∧
    ∃ px py qx qy, gen1 = .aff px py ∧ gen2 = .aff qx qy ∧ millerAff px py qx qy ≠ zero12 :=
  ⟨fun h => h.1 rfl, ⟨by decide, by decide, gen1_onCurve, gen1_inSubgroup, gen2_onCurve, gen2_inSubgroup⟩,
    _, _, _, _, rfl, rfl, by decide +kernel⟩

/-- One walk of the Miller loop. -/
def walk (px py : Fp) (qx qy : Fp2) : Nat → Triple → Fp12 → Fp12
  | 0, _, f => f
  | i + 1, r, f =>
    let d := dblStep r
    let f1 := tMul014 f d.2.1 (qMulf d.2.2.1 px) (qMulf d.2.2.2 py)
    let e := addStep d.1 qx qy
    let f2 := tMul014 f1 e.2.1 (qMulf e.2.2.1 px) (qMulf e.2.2.2 py)
    let r' := if xAbs.testBit i then e.1 else d.1
    let f' := if xAbs.testBit i then f2 else f1
    walk px py qx qy i r' (if i = 0 then f' else tMul f' f')

theorem witness_MillerLoopNeedsNoList (px py : Fp) (qx qy : Fp2) :
    (∀ r f, walk px py qx qy 0 r f = f) ∧
    ∀ i r f, walk px py qx qy (i + 1) r f =
      let d := dblStep r
      let f1 := tMul014 f d.2.1 (qMulf d.2.2.1 px) (qMulf d.2.2.2 py)
      let e := addStep d.1 qx qy
      let f2 := tMul014 f1 e.2.1 (qMulf e.2.2.1 px) (qMulf e.2.2.2 py)
      let r' := if xAbs.testBit i then e.1 else d.1
      let f' := if xAbs.testBit i then f2 else f1
      walk px py qx qy i r' (if i = 0 then f' else tMul f' f') := ⟨fun _ _ => rfl, fun _ _ _ => rfl⟩

theorem witness_LineStepsFollowTheCurve :
    one2 ≠ zero2 ∧ ∃ rx ry, gen2 = .aff rx ry ∧ ry ≠ zero2 ∧ OnCurve2 (toAffine opsFp2 rx ry one2) ∧
      rx ≠ qMul zero2 one2 :=
  ⟨by decide +kernel, _, _, rfl, by decide +kernel, by show _ = _; decide +kernel, by decide +kernel⟩

theorem witness_ExpanderFollowsR421 : (0 ≤ 8160) ∧ 8160 ≤ 8160 := by decide

theorem witness_TagAndExpanderInstructions :
    ((readR (writeR go 2 2048) 2).toNat ≤ 2048 ∧ Fits (readR (writeR go 1 63488) 1) 2048) ∧
    2048 < (readR (writeR go 2 2049) 2).toNat ∧ ¬Fits (readR (writeR go 1 63489) 1) 2048 ∧
    8160 < (readR (writeR go 4 8161) 4).toNat ∧ (readR (writeR go 4 8160) 4).toNat ≤ 8160 ∧
    Fits (readR (writeR go 1 57376) 1) 8160 ∧ ¬Fits (readR (writeR go 1 57377) 1) 8160 ∧ Memory.wf go.dmem :=
  ⟨⟨by decide, .inr (by decide)⟩, by decide, by unfold Fits; decide, by decide, by decide, .inr (by decide),
    by unfold Fits; decide, by decide⟩

/-- `u = 0` has the denominator 0, `u = 1` and `u = 2` have not; the first candidate of `u = 1` gives a square, that
of `u = 2` does not. -/
theorem witness_SimplifiedSwuLandsOnTheIsogenousCurve :
    (qAdd (qMul sswuZ zero2) zero2 = zero2 ∧ qMul sswuZ (qMul (q 2 0) (q 2 0)) ≠ zero2) ∧
    (∃ z, qMul z z = gPrime (sswuX1 (q 1 0))) ∧ ¬∃ z, qMul z z = gPrime (sswuX1 (q 2 0)) := by
  refine ⟨by decide +kernel, ?_, no_root2_of_fpow _ (by decide +kernel)⟩
  have h : ((qSqrt (gPrime (sswuX1 (q 1 0)))).toOption.map fun z => qMul z z) = some (gPrime (sswuX1 (q 1 0))) := by
    decide +kernel
  obtain ⟨z, -, hz⟩ := Option.map_eq_some_iff.1 h
  exact ⟨z, hz⟩

/-- The identity; a zero of both denominators; and a pair of E′, `sswu(0)`. -/
theorem witness_IsogenyLandsOnTheCurve :
    readH go 1 = .O ∧ (poly isoXDen (q (fieldP - 6) 6) = zero2 ∧ poly isoYDen (q (fieldP - 6) 6) = zero2) ∧
    (poly isoXDen zero2 ≠ zero2 ∧ poly isoYDen zero2 ≠ zero2) ∧
    ∃ x y, sswu zero2 = .aff x y ∧ qMul y y = gPrime x :=
  ⟨rfl, by decide +kernel, by decide +kernel, _, _, rfl, by decide +kernel⟩

theorem witness_HashingComposesItsStages :
    Fits (readR (writeR go 1 65535) 1) (readR (writeR go 2 1) 2).toNat ∧
    ¬Fits (readR (writeR go 1 65536) 1) (readR (writeR go 2 1) 2).toNat :=
  ⟨.inr (by decide), by unfold Fits; decide⟩

theorem witness_KeysAndSignatures :
    (0 < (readK (writeK go 1 1) 1).toNat ∧ (readK (writeK go 1 1) 1).toNat ≤ orderR) ∧
    (readK (writeK go 1 (BitVec.ofNat 256 orderR)) 1).toNat = orderR ∧ ¬0 < (readK go 1).toNat ∧
    ¬(readK (writeK go 1 (BitVec.ofNat 256 (orderR + 1))) 1).toNat ≤ orderR ∧
    Fits (readR (writeR go 1 65535) 1) (readR (writeR go 2 1) 2).toNat ∧
    ¬Fits (readR (writeR go 1 65536) 1) (readR (writeR go 2 1) 2).toNat :=
  ⟨by decide +kernel, by decide +kernel, by decide +kernel, by decide +kernel, .inr (by decide),
    by unfold Fits; decide⟩

theorem witness_VerificationNeverRaisesInternally :
    Fits (readR (writeR go 1 65535) 1) (readR (writeR go 2 1) 2).toNat ∧
    ¬Fits (readR (writeR go 1 65536) 1) (readR (writeR go 2 1) 2).toNat :=
  ⟨.inr (by decide), by unfold Fits; decide⟩

/-- Runs that start at register 15 and fit or do not, and a sequence of partial sums. -/
theorem witness_AggregatesSumTheirRuns {F : Type} [DecidableEq F] (ops : FieldOps F) (P : Nat → Point F) :
    (readR go 2).toNat = 0 ∧
    (0 < (readR (writeR go 2 2) 2).toNat ∧ 16 < (15 : RegIdx).val + (readR (writeR go 2 2) 2).toNat) ∧
    (0 < (readR (writeR go 2 1) 2).toNat ∧ (15 : RegIdx).val + (readR (writeR go 2 1) 2).toNat ≤ 16) ∧
    ∃ S : Nat → Point F, S 0 = .O ∧ ∀ j < 1, S (j + 1) = ptAdd ops (S j) (P j) :=
  ⟨by decide, by decide, by decide, Nat.rec .O fun j s => ptAdd ops s (P j), rfl, fun _ _ => rfl⟩

theorem witness_BatchVerification :
    (readR go 3).toNat = 0 ∧
    (0 < (readR (writeR go 3 1) 3).toNat ∧ (readR go 2).toNat ≠ (readR (writeR go 3 1) 3).toNat) ∧
    (0 < (readR (writeR go 3 2) 3).toNat ∧ (readR (writeR go 2 2) 2).toNat = (readR (writeR go 3 2) 3).toNat ∧
      16 < (15 : RegIdx).val + (readR (writeR go 2 2) 2).toNat) ∧
    (0 < (readR (writeR go 3 1) 3).toNat ∧ (readR (writeR go 2 1) 2).toNat = (readR (writeR go 3 1) 3).toNat ∧
      (15 : RegIdx).val + (readR (writeR go 2 1) 2).toNat ≤ 16) := by decide

/-- START and BUSY; a clear in the step of a `HALT` and of an exception; and, from states with the invariant, a step
that stays BUSY, one that ends DONE and one that ends ERROR. -/
theorem witness_HostRegistersStartAndInterrupts :
    (State.reset.status ≠ .busy ∧ (1 : Word).getLsbD 0 = true ∧ (2 : Word).getLsbD 0 = false) ∧
    (go.status = .busy ∧ (0x14 ≠ 0x18 ∧ 0x14 ≠ 0x1C) ∧ 0x4000 ≤ 0x4000) ∧
    (∃ u, stepClearing (running 0x01000000) 3 = .next u ∧ u.status = .done) ∧
    (∃ u, stepClearing (running 0) 3 = .next u ∧ u.status = .error) ∧
    (Inv (running 0x02000000) ∧ ∃ u, step (running 0x02000000) = .next u ∧ hostRead u 0x04 = 1) ∧
    (Inv (running 0x01000000) ∧ ∃ u, step (running 0x01000000) = .next u ∧ hostRead u 0x04 = 2) ∧
    (Inv (running 0x0300002A) ∧ ∃ u, step (running 0x0300002A) = .next u ∧ hostRead u 0x04 = 3) :=
  ⟨by decide, by decide, ⟨_, rfl, rfl⟩, ⟨_, rfl, rfl⟩, ⟨running_inv _ (by decide), _, rfl, rfl⟩,
    ⟨running_inv _ (by decide), _, rfl, rfl⟩, ⟨running_inv _ (by decide), _, rfl, rfl⟩⟩

theorem witness_HostWindowImages :
    (Memory.wf State.reset.dmem ∧ Cells.wf Config.imemWords State.reset.imem ∧ State.reset.status ≠ .busy) ∧
    (1023 < Config.imemWords ∧ 4 * 16383 < Config.dmemBytes) ∧
    ((0x20000 - 1) % 4 ≠ 0 ∧ (0x20 ≤ 0x20 ∧ 0x3FFF < 0x4000) ∧
      (0x4000 + 4 * Config.imemWords ≤ 0x5000 ∧ 0xFFFC < 0x10000) ∧ 0x10000 + Config.dmemBytes ≤ 0x20000) := by decide

end Sys2Proof.Tests
end

section
/-! PROOFS. The byte strings and the constants of spec/00_scope.md (R8, R10 to R16), and the Frobenius map of Fp2 on
which the powers of `ξ` in R14 rest. -/

namespace Sys2Proof.Machine

open Sys2Proof

/-! Byte strings (spec/00_scope.md R8). -/

/-- Settles O13, from the laws of `os2ip` and `i2osp`. -/
theorem byteStringsAreBigEndian : Obligations.ByteStringsAreBigEndian :=
  ⟨os2ip_nil, os2ip_cons,
    fun v n hv => ⟨i2osp_length v n, by rw [os2ip_i2osp, Nat.mod_eq_of_lt hv]⟩, i2osp_os2ip⟩

/-! Powers in Fp2 and the Frobenius map. -/

/-- `q_pow` is the power of the ring Fp2 (spec/42_fp2.md R213). -/
theorem qPow_eq_pow (a : Fp2) (n : Nat) :
    letI := ringFp2
    qPow a n = a ^ n := by
  let := ringFp2
  rw [qPow, powBy_eq_repMul qMul one2 qRing_mul_assoc qRing_one_mul qRing_mul_one]
  induction n with
  | zero => exact (pow_zero a).symm
  | succ n ih => rw [repMul, ih, pow_succ]; rfl

theorem qPow_add (a : Fp2) (m n : Nat) : qPow a (m + n) = qMul (qPow a m) (qPow a n) := by
  let := ringFp2
  simp only [qPow_eq_pow]
  exact pow_add a m n

theorem qPow_mul (a : Fp2) (m n : Nat) : qPow a (m * n) = qPow (qPow a m) n := by
  let := ringFp2
  simp only [qPow_eq_pow]
  exact pow_mul a m n

theorem qPow_mul_two (a : Fp2) (n : Nat) : qPow a (n * 2) = qMul (qPow a n) (qPow a n) := by
  rw [Nat.mul_two, qPow_add]

@[simp] theorem toFp_val (x : Fp) : toFp x.val = x := Fin.ext (Nat.mod_eq_of_lt x.isLt)

/-- The natural numbers of the ring Fp2 lie in Fp. -/
theorem natCast_fp2 (n : Nat) :
    letI := ringFp2
    (n : Fp2) = mkFp2 n 0 := by
  let := ringFp2
  induction n with
  | zero => exact Nat.cast_zero
  | succ n ih =>
    rw [Nat.cast_succ, ih]
    change qAdd (mkFp2 n 0) one2 = mkFp2 (n + 1) 0
    exact fp2_toZ_ext (by simp) (by simp)

/-- The integers modulo `p` satisfy Fermat's little theorem inside Fp2. -/
theorem qPow_natCast_fieldP (n : Nat) : qPow (mkFp2 n 0) fieldP = mkFp2 n 0 := by
  let := ringFp2
  have : Fact (Nat.Prime fieldP) := ⟨fieldP_prime⟩
  rw [qPow_eq_pow, ← natCast_fp2 n, ← Nat.cast_pow, natCast_fp2, natCast_fp2]
  refine fp2_toZ_ext ?_ rfl
  rw [mkFp2_c0, mkFp2_c0, toZ_toFp, toZ_toFp, Nat.cast_pow, ZMod.pow_card]

/-- The `p`-th power is additive on Fp2, since `p = 0` there. -/
theorem qPow_qAdd_fieldP (a b : Fp2) : qPow (qAdd a b) fieldP = qAdd (qPow a fieldP) (qPow b fieldP) := by
  let := ringFp2
  have hp : ((fieldP : Nat) : Fp2) = 0 := by
    rw [natCast_fp2]
    exact fp2_toZ_ext (b := zero2) (by simp) (by simp)
  obtain ⟨r, hr⟩ := exists_add_pow_prime_eq fieldP_prime a b
  rw [hp, zero_mul, zero_mul, zero_mul, add_zero] at hr
  simp only [qPow_eq_pow]
  exact hr

theorem qPow_qMul (a b : Fp2) (n : Nat) : qPow (qMul a b) n = qMul (qPow a n) (qPow b n) := by
  let := ringFp2
  simp only [qPow_eq_pow]
  exact mul_pow a b n

/-- `u^p = -u`, as `p` is 3 modulo 4. -/
theorem qPow_u_fieldP : qPow (mkFp2 0 1) fieldP = mkFp2 0 (fieldP - 1) := by decide +kernel

/-- The `p`-th power of Fp2 is conjugation. -/
theorem qPow_fieldP (a : Fp2) : qPow a fieldP = qConj a := by
  have ha : qAdd (mkFp2 a.c0.val 0) (qMul (mkFp2 a.c1.val 0) (mkFp2 0 1)) = a :=
    fp2_toZ_ext (by simp) (by simp)
  have hp : ((fieldP - 1 : Nat) : ZMod fieldP) = -1 := by
    rw [Nat.cast_sub fieldP_pos, ZMod.natCast_self, Nat.cast_one, zero_sub]
  conv_lhs => rw [← ha]
  rw [qPow_qAdd_fieldP, qPow_qMul, qPow_natCast_fieldP, qPow_natCast_fieldP, qPow_u_fieldP]
  exact fp2_toZ_ext (by simp) (by simp [hp])

/-! The Frobenius coefficients (spec/00_scope.md R14). -/

/-- The exponents of R14 are integers: `p` is 1 modulo 6. -/
theorem six_dvd_pow_sub_one (k : Nat) : 6 ∣ fieldP ^ k - 1 := by
  have h : fieldP - 1 ∣ fieldP ^ k - 1 := by simpa using Nat.sub_dvd_pow_sub_pow fieldP 1 k
  exact Nat.dvd_trans (by decide +kernel) h

/-- The exponents of `G12` by recursion. -/
theorem frobExponent_succ (k : Nat) :
    (fieldP ^ (k + 1) - 1) / 6 = (fieldP ^ k - 1) / 6 * fieldP + (fieldP - 1) / 6 := by
  obtain ⟨m, hm⟩ := six_dvd_pow_sub_one k
  have hk : fieldP ^ k = 6 * m + 1 := by have := Nat.pow_pos (n := k) fieldP_pos; omega
  have hs : fieldP ^ (k + 1) - 1 = 6 * (m * fieldP) + (fieldP - 1) := by
    rw [pow_succ, hk, Nat.add_mul, Nat.one_mul, Nat.mul_assoc, Nat.add_sub_assoc fieldP_pos]
  rw [hs, hm, Nat.mul_div_cancel_left m (by decide), Nat.mul_add_div (by decide)]

/-- Each entry of `G12` from the entry before it. -/
theorem g12_succ : ∀ k < 11, g12 (k + 1) = qMul (qConj (g12 k)) (g12 1) := by decide +kernel

theorem g12_one : g12 1 = qPow xi ((fieldP - 1) / 6) := by decide +kernel

/-- `G12[k] = ξ^((p^k-1)/6)`. -/
theorem g12_eq_qPow (k : Nat) (hk : k < 12) : g12 k = qPow xi ((fieldP ^ k - 1) / 6) := by
  induction k with
  | zero => rfl
  | succ k ih =>
    rw [g12_succ k (by omega), ih (by omega), g12_one, frobExponent_succ, qPow_add, qPow_mul, qPow_fieldP]

/-- The entries of `G6A` are the squares of those of `G12`, and the entries of `G6B` theirs. -/
theorem g6a_g6b_eq_sq : ∀ k < 6, g6a k = qMul (g12 k) (g12 k) ∧ g6b k = qMul (g6a k) (g6a k) := by
  decide +kernel

/-- `G6A[k] = ξ^((p^k-1)/3)` and `G6B[k] = ξ^((2p^k-2)/3)`. -/
theorem g6a_g6b_eq_qPow (k : Nat) (hk : k < 6) :
    g6a k = qPow xi ((fieldP ^ k - 1) / 3) ∧ g6b k = qPow xi ((2 * fieldP ^ k - 2) / 3) := by
  obtain ⟨m, hm⟩ := six_dvd_pow_sub_one k
  have ha : g6a k = qPow xi ((fieldP ^ k - 1) / 3) := by
    rw [(g6a_g6b_eq_sq k hk).1, g12_eq_qPow k (by omega), ← qPow_mul_two]
    congr 1; omega
  refine ⟨ha, ?_⟩
  rw [(g6a_g6b_eq_sq k hk).2, ha, ← qPow_mul_two]
  congr 1; omega

/-! The other constants (spec/00_scope.md R10 to R13). -/

theorem orderR_eq : orderR = xAbs ^ 4 - xAbs ^ 2 + 1 := by decide +kernel

theorem three_mul_fieldP_add_xAbs : 3 * (fieldP + xAbs) = (xAbs + 1) ^ 2 * orderR := by decide +kernel

theorem generators_onCurve : OnCurve1 gen1 ∧ OnCurve2 gen2 :=
  ⟨(oncurve_iff gen1).1 (by decide +kernel), (oncurve2_iff gen2).1 (by decide +kernel)⟩

/-- `BETA` is a cube root of unity other than 1, and `PSI2_C` its square. -/
theorem beta_cubeRoot : (beta.val ^ 3 % fieldP = 1 ∧ beta.val ≠ 1) ∧ psi2C.val = beta.val ^ 2 % fieldP := by
  decide +kernel

/-- `PSI_CX` and `PSI_CY` are the inverses of `ξ^((p-1)/3)` and `ξ^((p-1)/2)`. -/
theorem psi_coefficients_inverse :
    qMul psiCX (qPow xi ((fieldP - 1) / 3)) = one2 ∧ qMul psiCY (qPow xi ((fieldP - 1) / 2)) = one2 := by
  decide +kernel

/-- The eight roots are the powers of `ROOT[1]`, a square root of `u`. -/
theorem root_powers : root 0 = one2 ∧ qMul (root 1) (root 1) = mkFp2 0 1 ∧
    (∀ k < 7, root (k + 1) = qMul (root k) (root 1)) ∧ 2 * (root 1).c0.val < fieldP := by
  decide +kernel

/-- Settles O14. The identities and the printed values are evaluated; the Frobenius coefficients, whose exponents run
to `p^11`, follow from the recursion of `G12` and from conjugation being the `p`-th power. -/
theorem constantsMeetTheirPins : Obligations.ConstantsMeetTheirPins := by
  obtain ⟨hgen1, hgen2⟩ := generators_onCurve
  obtain ⟨hbeta, hpsi2⟩ := beta_cubeRoot
  obtain ⟨hcx, hcy⟩ := psi_coefficients_inverse
  refine ⟨orderR_eq, three_mul_fieldP_add_xAbs, hgen1, hgen2, hbeta, hpsi2, hcx, hcy, root_powers, g6a_g6b_eq_qPow,
    g12_eq_qPow, ⟨_, _, rfl, by decide +kernel⟩, ⟨_, _, rfl, by decide +kernel⟩, ?_⟩
  decide +kernel

end Sys2Proof.Machine
end

section
/-! PROOFS. What an instruction can do (spec/10_state.md R30 to R50): which exceptions a computation raises, what an
instruction that answers keeps, and from these one inversion of `exec`. -/

namespace Sys2Proof.Machine

open Sys2Proof

/-! Exceptions a rule raises. -/

/-- An exception of R471 that some rule raises: not the reserved NoDivisorIndex (R486), and with an information word
of 0 but for the four causes R471 gives one. -/
def Raisable (e : Exn) : Prop :=
  e.cause ≠ .noDivisorIndex ∧
  (e.cause ≠ .illegalInstruction → e.cause ≠ .fetchRange → e.cause ≠ .dmemRange → e.cause ≠ .softwareFail →
    e.info = 0)

theorem raisable_fails {c : Cause} (hc : c ≠ .noDivisorIndex) : Raisable (fails c) :=
  ⟨hc, fun _ _ _ _ => rfl⟩

theorem raisable_illegalInstruction (w : Word) : Raisable ⟨.illegalInstruction, w⟩ :=
  ⟨by simp, fun h => absurd rfl h⟩

theorem raisable_fetchRange (w : Word) : Raisable ⟨.fetchRange, w⟩ :=
  ⟨by simp, fun _ h => absurd rfl h⟩

theorem raisable_dmemRange (w : Word) : Raisable ⟨.dmemRange, w⟩ :=
  ⟨by simp, fun _ _ h => absurd rfl h⟩

theorem raisable_softwareFail (w : Word) : Raisable ⟨.softwareFail, w⟩ :=
  ⟨by simp, fun _ _ _ h => absurd rfl h⟩

/-- `x` answers a value with `P`, or raises an exception of R471. -/
inductive Yields {α : Type} (P : α → Prop) : Res α → Prop
  | ok {a : α} (ha : P a) : Yields P (.ok a)
  | error {e : Exn} (he : Raisable e) : Yields P (.error e)

/-- `x` raises exceptions of R471 only. -/
abbrev Orderly {α : Type} (x : Res α) : Prop := Yields (fun _ => True) x

section
variable {α β : Type} {P : α → Prop}

theorem orderly_ok (a : α) : Orderly (.ok a : Res α) := .ok trivial

theorem yields_fails {c : Cause} (hc : c ≠ .noDivisorIndex := by decide) : Yields P (.error (fails c)) :=
  .error (raisable_fails hc)

/-- A computation followed by another. -/
theorem yields_bind {x : Res β} {k : β → Res α} (hx : Orderly x) (hk : ∀ b, Yields P (k b)) : Yields P (x >>= k) := by
  cases hx with
  | ok _ => exact hk _
  | error he => exact .error he

theorem yields_ite {c : Prop} [Decidable c] {x y : Res α} (hx : Yields P x) (hy : Yields P y) :
    Yields P (if c then x else y) := by
  split
  · exact hx
  · exact hy

/-- A check that raises before the computation it guards. -/
theorem yields_guard {p : Prop} [Decidable p] {x : Res α} (c : Cause) (hx : Yields P x)
    (hc : c ≠ .noDivisorIndex := by decide) : Yields P (if p then .error (fails c) else x) :=
  yields_ite (yields_fails hc) hx

end

/-! The computations of the rules, in the order of their definitions: each raises exceptions of R471 only. -/

theorem memRead_orderly (s : State) (addr : Word) (n : Nat) : Orderly (memRead s addr n) := by
  obtain ⟨_, h⟩ | ⟨_, h⟩ := memRead_cases s addr n <;> rw [h]
  · exact orderly_ok _
  · exact .error <| raisable_dmemRange addr

theorem regRun_orderly {α : Type} (file : RegFile α) (b : RegIdx) (n : Nat) : Orderly (regRun file b n) := by
  obtain ⟨_, h⟩ | ⟨_, h⟩ := regRun_cases file b n <;> rw [h]
  · exact orderly_ok _
  · exact yields_fails

theorem fetchInstr_orderly (s : State) : Orderly (fetchInstr s) := by
  obtain ⟨_, h⟩ | ⟨_, _, _, h⟩ | ⟨_, _, _, h⟩ := fetchInstr_cases s <;> rw [h]
  · exact .error <| raisable_fetchRange _
  · exact .error <| raisable_illegalInstruction _
  · exact orderly_ok _

theorem finv_orderly (a : Fp) : Orderly (finv a) := yields_guard _ (orderly_ok _)

theorem fdiv_orderly (a b : Fp) : Orderly (fdiv a b) := yields_bind (finv_orderly b) fun _ => orderly_ok _

theorem qInv_orderly (a : Fp2) : Orderly (qInv a) := yields_guard _ (orderly_ok _)

theorem qDiv_orderly (a b : Fp2) : Orderly (qDiv a b) := yields_bind (qInv_orderly b) fun _ => orderly_ok _

theorem qSqrt_orderly (a : Fp2) : Orderly (qSqrt a) := by
  refine yields_bind (qDiv_orderly _ a) fun check => ?_
  cases evenRootIndex check with
  | none => exact yields_fails
  | some i => exact yields_bind (qDiv_orderly _ _) fun _ => orderly_ok _

theorem canonical_orderly (v : Nat) : Orderly (canonical v) := yields_guard _ (orderly_ok _)

theorem liftX1_orderly (x : Fp) (sign : Bool) : Orderly (liftX1 x sign) := by
  unfold liftX1
  cases fsqrt (curveRhs x) with
  | none => exact yields_fails
  | some y =>
    exact yields_ite (orderly_ok _) yields_fails

theorem decompress1_orderly (bytes : List Byte) : Orderly (decompress1 bytes) :=
  yields_guard _ <| yields_ite (yields_guard _ (orderly_ok _)) <| yields_bind (canonical_orderly _) fun _ =>
    liftX1_orderly _ _

theorem checked1_orderly (a : Point Fp) : Orderly (checked1 a) := yields_guard _ (yields_guard _ (orderly_ok _))

theorem decodeU1_orderly (bytes : List Byte) : Orderly (decodeU1 bytes) :=
  yields_guard _ <| yields_ite (yields_guard _ (orderly_ok _)) <| yields_bind (canonical_orderly _) fun _ =>
    yields_bind (canonical_orderly _) fun _ => checked1_orderly _

theorem liftX2_orderly (x : Fp2) (sign : Bool) : Orderly (liftX2 x sign) := by
  unfold liftX2
  cases qSqrt (curveRhs2 x) with
  | error e => exact yields_fails
  | ok y => exact yields_ite (orderly_ok _) yields_fails

theorem decompress2_orderly (bytes : List Byte) : Orderly (decompress2 bytes) :=
  yields_guard _ <| yields_ite (yields_guard _ (orderly_ok _)) <| yields_bind (canonical_orderly _) fun _ =>
    yields_bind (canonical_orderly _) fun _ => liftX2_orderly _ _

theorem checked2_orderly (a : Point Fp2) : Orderly (checked2 a) := yields_guard _ (yields_guard _ (orderly_ok _))

theorem decodeU2_orderly (bytes : List Byte) : Orderly (decodeU2 bytes) :=
  yields_guard _ <| yields_ite (yields_guard _ (orderly_ok _)) <| yields_bind (canonical_orderly _) fun _ =>
    yields_bind (canonical_orderly _) fun _ => yields_bind (canonical_orderly _) fun _ =>
      yields_bind (canonical_orderly _) fun _ => checked2_orderly _

theorem sInv_orderly (a : Fp6) : Orderly (sInv a) := yields_guard _ (orderly_ok _)

theorem sDiv_orderly (a b : Fp6) : Orderly (sDiv a b) := yields_bind (sInv_orderly b) fun _ => orderly_ok _

theorem tInv_orderly (a : Fp12) : Orderly (tInv a) := yields_guard _ (orderly_ok _)

theorem tDiv_orderly (a b : Fp12) : Orderly (tDiv a b) := yields_bind (tInv_orderly b) fun _ => orderly_ok _

theorem tFinalexp_orderly (a : Fp12) : Orderly (tFinalexp a) := yields_bind (tDiv_orderly _ a) fun _ => orderly_ok _

theorem pairCheck_orderly (p : Point Fp) (q : Point Fp2) : Orderly (pairCheck p q) :=
  yields_guard _ <| yields_guard _ <| yields_guard _ (orderly_ok _)

theorem pairMl_orderly (p : Point Fp) (q : Point Fp2) : Orderly (pairMl p q) := by
  have hcheck := pairCheck_orderly p q
  unfold pairMl
  generalize pairCheck p q = check at hcheck ⊢
  cases hcheck with
  | error he => exact .error he
  | ok _ =>
    dsimp only
    split
    · exact orderly_ok _
    · exact yields_fails

theorem pairFull_orderly (p : Point Fp) (q : Point Fp2) : Orderly (pairFull p q) :=
  yields_bind (pairMl_orderly p q) tFinalexp_orderly

theorem coreVerify_orderly (pk : Point Fp) (sig m : Point Fp2) : Orderly (coreVerify pk sig m) :=
  yields_bind (pairMl_orderly _ m) fun _ => yields_bind (pairMl_orderly _ sig) fun _ =>
    yields_bind (tFinalexp_orderly _) fun _ => orderly_ok _

theorem batchLoop_orderly (pks : List (Point Fp)) (ms : List (Point Fp2)) (seen rest : List (Point Fp2))
    (acc : Fp12) : Orderly (batchLoop pks ms seen rest acc) := by
  induction rest generalizing seen acc with
  | nil => exact orderly_ok _
  | cons m rest ih =>
    refine yields_ite (ih _ _) ?_
    have hpair := pairMl_orderly (groupSum pks ms m) m
    generalize pairMl (groupSum pks ms m) m = value at hpair ⊢
    cases hpair with
    | error he => exact .error he
    | ok _ => exact ih _ _

theorem batchVerify_orderly (pks : List (Point Fp)) (ms : List (Point Fp2)) (asig : Point Fp2) :
    Orderly (batchVerify pks ms asig) :=
  yields_bind (batchLoop_orderly pks ms _ _ _) fun _ => yields_bind (pairMl_orderly _ asig) fun _ =>
    yields_bind (tFinalexp_orderly _) fun _ => orderly_ok _

theorem collapse_orderly {v : Res Bool} (hv : Orderly v) : Orderly (collapse v) := by
  cases hv with
  | ok _ => exact orderly_ok _
  | error he => exact yields_ite (orderly_ok _) (.error he)

/-! Instructions that answer. -/

/-- What an instruction leaves as it was when it neither ends the run nor raises, `H2C.DST` apart: the host side, the
slot of `r0` (spec/10_state.md R31), the tag (R41) and the canonical form of DMEM. -/
structure Completes (s u : State) : Prop where
  control : SameControl s u
  zeroReg : u.r.get 0 = s.r.get 0
  tag : u.dstBuf = s.dstBuf
  dmem : Memory.wf s.dmem → Memory.wf u.dmem

theorem completes_refl (s : State) : Completes s s := ⟨sameControl_refl s, rfl, rfl, id⟩

theorem SameControl.trans {s u v : State} (h : SameControl s u) (h' : SameControl u v) : SameControl s v :=
  ⟨h'.imem.trans h.imem, h'.startPc.trans h.startPc, h'.intrEnable.trans h.intrEnable,
    h'.intrState.trans h.intrState, h'.status.trans h.status, h'.ecause.trans h.ecause, h'.epc.trans h.epc,
    h'.einfo.trans h.einfo⟩

theorem Completes.trans {s u v : State} (h : Completes s u) (h' : Completes u v) : Completes s v :=
  ⟨h.control.trans h'.control, h'.zeroReg.trans h.zeroReg, h'.tag.trans h.tag, h'.dmem ∘ h.dmem⟩

theorem completes_setPc (s : State) (n : Word) : Completes s (setPc s n) :=
  ⟨((frame_refl {} s).setPc n).control, rfl, rfl, id⟩

/-- A write to `r0` is discarded, and a write to another register is elsewhere. -/
theorem writeR_zeroReg (s : State) (a : RegIdx) (v : Word) : (writeR s a v).r.get 0 = s.r.get 0 := by
  rw [writeR_r]
  split
  · rfl
  · next ha => rw [get_set, if_neg (Ne.symm ha)]

theorem completes_writeR (s : State) (a : RegIdx) (v : Word) : Completes s (writeR s a v) :=
  ⟨(frame_writeR s a v).control, writeR_zeroReg s a v, writeR_dstBuf s a v, by simp⟩

theorem completes_writeF (s : State) (a : RegIdx) (v : Fp) : Completes s (writeF s a v) :=
  ⟨(frame_writeF s a v).control, rfl, rfl, id⟩

theorem completes_writeQ (s : State) (a : RegIdx) (v : Fp2) : Completes s (writeQ s a v) :=
  ⟨(frame_writeQ s a v).control, rfl, rfl, id⟩

theorem completes_writeS (s : State) (a : RegIdx) (v : Fp6) : Completes s (writeS s a v) :=
  ⟨(frame_writeS s a v).control, rfl, rfl, id⟩

theorem completes_writeT (s : State) (a : RegIdx) (v : Fp12) : Completes s (writeT s a v) :=
  ⟨(frame_writeT s a v).control, rfl, rfl, id⟩

theorem completes_writeG (s : State) (a : RegIdx) (v : Point Fp) : Completes s (writeG s a v) :=
  ⟨(frame_writeG s a v).control, rfl, rfl, id⟩

theorem completes_writeH (s : State) (a : RegIdx) (v : Point Fp2) : Completes s (writeH s a v) :=
  ⟨(frame_writeH s a v).control, rfl, rfl, id⟩

theorem completes_writeK (s : State) (a : RegIdx) (v : Scalar) : Completes s (writeK s a v) :=
  ⟨(frame_writeK s a v).control, rfl, rfl, id⟩

theorem completes_setDmem (s : State) (m : List Host.Cell) (hm : Memory.wf s.dmem → Memory.wf m) :
    Completes s (setDmem s m) :=
  ⟨⟨rfl, rfl, rfl, rfl, rfl, rfl, rfl, rfl⟩, rfl, rfl, hm⟩

/-- A store completes, or raises DmemRange. -/
theorem memWrite_yields (s : State) (addr : Word) (v : List Byte) : Yields (Completes s) (memWrite s addr v) := by
  obtain ⟨_, h⟩ | ⟨_, h⟩ := memWrite_cases s addr v
  · have hwf : Memory.wf s.dmem → _ := memWrite_wf h
    exact h ▸ .ok (completes_setDmem s _ hwf)
  · exact h ▸ .error (raisable_dmemRange addr)

/-! The inversion of `exec`. -/

/-- Everything `i` executed in `s` can go to. -/
inductive Executes (i : Instr) (s : State) : State → Prop
  /-- `HALT` (spec/40_control_integer_scalar.md R134). -/
  | halts (hi : i = .halt) : Executes i s (haltRun s)
  /-- `H2C.DST` (spec/48_hash_to_curve.md R430). -/
  | tags (b c : RegIdx) (tag : List Byte) (hi : i = .h2cDst b c) (htag : tag.length ≤ Config.dstMax) :
      Executes i s (setPc (setTag s tag) (s.pc + 1))
  /-- Every other instruction that answers. -/
  | completes (u : State) (hu : Completes s u) : Executes i s u
  /-- An exception taken (spec/60_exceptions.md R490). -/
  | raises (e : Exn) (he : Raisable e) : Executes i s (takeException s e)

/-- `i` executed in `s` answers a next state, one that `Executes` lists. -/
def Answered (i : Instr) (s : State) : Prop := ∃ u, exec i s = .next u ∧ Executes i s u

/-- An instruction that sets `pc` itself. -/
theorem answered_of_setPc {i : Instr} {s u : State} {n : Word} (h : exec i s = .next (setPc u n))
    (hu : Completes s u) : Answered i s :=
  ⟨_, h, .completes _ (hu.trans (completes_setPc u n))⟩

/-- An instruction that ends in `retire`. -/
theorem answered_of_retire {i : Instr} {s : State} {body : Res State} (h : exec i s = retire s body)
    (hb : Yields (Completes s) body) : Answered i s := by
  cases hb with
  | ok hu => exact answered_of_setPc h hu
  | error he => exact ⟨_, h, .raises _ he⟩

/-- An instruction whose meaning is one state at the next index. -/
theorem answered_of_ok {i : Instr} {s u : State} (h : exec i s = retire s (.ok u)) (hu : Completes s u) :
    Answered i s :=
  answered_of_retire h (.ok hu)

/-- An instruction that computes a value that may raise and then writes it. -/
theorem answered_of_bind {α : Type} {i : Instr} {s : State} {x : Res α} {k : α → Res State}
    (h : exec i s = retire s (x >>= k)) (hx : Orderly x) (hk : ∀ a, Yields (Completes s) (k a)) : Answered i s :=
  answered_of_retire h (yields_bind hx hk)

/-- A store. -/
theorem answered_of_store {i : Instr} {s : State} {addr : Word} {v : List Byte}
    (h : exec i s = retire s (memWrite s addr v)) : Answered i s :=
  answered_of_retire h (memWrite_yields s addr v)

/-! The instructions whose meaning branches on an operand. -/

theorem qGet_answered (a b : RegIdx) (n : BitVec 4) (s : State) : Answered (.qGet a b n) s := by
  have h : exec (.qGet a b n) s = execQGet a b n s := rfl
  unfold execQGet at h
  split at h
  · exact answered_of_ok h (completes_writeF _ _ _)
  · exact answered_of_ok h (completes_writeF _ _ _)
  · exact answered_of_retire h (.error (raisable_illegalInstruction _))

theorem sGet_answered (a b : RegIdx) (n : BitVec 4) (s : State) : Answered (.sGet a b n) s := by
  have h : exec (.sGet a b n) s = execSGet a b n s := rfl
  unfold execSGet at h
  split at h
  · exact answered_of_ok h (completes_writeQ _ _ _)
  · exact answered_of_ok h (completes_writeQ _ _ _)
  · exact answered_of_ok h (completes_writeQ _ _ _)
  · exact answered_of_retire h (.error (raisable_illegalInstruction _))

theorem tGet_answered (a b : RegIdx) (n : BitVec 4) (s : State) : Answered (.tGet a b n) s := by
  have h : exec (.tGet a b n) s = execTGet a b n s := rfl
  unfold execTGet at h
  split at h
  · exact answered_of_ok h (completes_writeS _ _ _)
  · exact answered_of_ok h (completes_writeS _ _ _)
  · exact answered_of_retire h (.error (raisable_illegalInstruction _))

theorem fSqrt_answered (a b c : RegIdx) (s : State) : Answered (.fSqrt a b c) s := by
  have h : exec (.fSqrt a b c) s = execFSqrt a b c s := rfl
  unfold execFSqrt at h
  split at h
  · exact answered_of_ok h ((completes_writeF s a _).trans (completes_writeR _ c 1))
  · exact answered_of_ok h (completes_writeR s c 0)

theorem g1Getaff_answered (a b c : RegIdx) (s : State) : Answered (.g1Getaff a b c) s := by
  have h : exec (.g1Getaff a b c) s = execG1Getaff a b c s := rfl
  unfold execG1Getaff at h
  split at h
  · exact answered_of_retire h yields_fails
  · exact answered_of_ok h ((completes_writeF s a _).trans (completes_writeF _ b _))

theorem g2Getaff_answered (a b c : RegIdx) (s : State) : Answered (.g2Getaff a b c) s := by
  have h : exec (.g2Getaff a b c) s = execG2Getaff a b c s := rfl
  unfold execG2Getaff at h
  split at h
  · exact answered_of_retire h yields_fails
  · exact answered_of_ok h ((completes_writeQ s a _).trans (completes_writeQ _ b _))

/-- `H2C.DST` checks the length before it reads, so the tag it keeps is within its capacity (R41, R430). -/
theorem h2cDst_answered (b c : RegIdx) (s : State) : Answered (.h2cDst b c) s := by
  have h : exec (.h2cDst b c) s = execH2cDst b c s := rfl
  unfold execH2cDst at h
  split at h
  · exact answered_of_retire h yields_fails
  · next hlen =>
    obtain ⟨_, hread⟩ | ⟨_, hread⟩ := memRead_cases s (readR s b) (readR s c).toNat <;> rw [hread] at h
    · exact ⟨_, h, .tags b c _ rfl (by rw [readBytes_length]; omega)⟩
    · exact answered_of_retire h (.error (raisable_dmemRange _))

/-- Every instruction in every state answers a next state, and goes nowhere `Executes` does not list. -/
theorem exec_answered (i : Instr) (s : State) : Answered i s := by
  cases i with
  | halt => exact ⟨_, rfl, .halts rfl⟩
  | fail => exact ⟨_, rfl, .raises _ (raisable_softwareFail _)⟩
  | nop | g1Precomp | g2Precomp => exact answered_of_ok rfl (completes_refl s)
  | beq | bne | bltu => exact answered_of_setPc rfl (completes_refl s)
  | jal | jalr => exact answered_of_setPc rfl (completes_writeR _ _ _)
  -- One register written with a value that is always there, by the register's file.
  | li | lui | addi | add | sub | and | or | xor | fEq | qEq | sEq | tEq | qSgn0 | kValid
  | g1Eq | g1Isid | g1Oncurve | g1Insub | g1Valid | g2Eq | g2Isid | g2Oncurve | g2Insub | g2Valid =>
    exact answered_of_ok rfl (completes_writeR _ _ _)
  | fMov | fLi | fAdd | fSub | fNeg | fMul | fSqr | fPow => exact answered_of_ok rfl (completes_writeF _ _ _)
  | qMov | qPack | qFrob | qAdd | qSub | qNeg | qMul | qSqr | qPow | qMulnr =>
    exact answered_of_ok rfl (completes_writeQ _ _ _)
  | sMov | sPack | sMul1 | sMul01 | sAdd | sSub | sNeg | sMul | sSqr | sPow | sMulnr =>
    exact answered_of_ok rfl (completes_writeS _ _ _)
  | tMov | tPack | tFrob | tConj | tAdd | tSub | tNeg | tMul | tSqr | tPow | tMul014 | tCycsqr | tCycexp =>
    exact answered_of_ok rfl (completes_writeT _ _ _)
  | g1Mov | g1Pack | g1Id | g1Gen | g1Add | g1Sub | g1Neg | g1Dbl | g1Mul | g1Mulu | g1Mulmx | g1Clrcof | g1Phi =>
    exact answered_of_ok rfl (completes_writeG _ _ _)
  | g2Mov | g2Pack | g2Id | g2Gen | g2Add | g2Sub | g2Neg | g2Dbl | g2Mul | g2Mulu | g2Mulmx | g2Clrcof | g2Psi
  | g2Psi2 | h2cSwu | h2cIso | h2cMap =>
    exact answered_of_ok rfl (completes_writeH _ _ _)
  | kMov | kLi => exact answered_of_ok rfl (completes_writeK _ _ _)
  -- One register written with a value whose computation may raise.
  | fInv => exact answered_of_bind rfl (finv_orderly _) fun _ => .ok (completes_writeF _ _ _)
  | fDiv => exact answered_of_bind rfl (fdiv_orderly _ _) fun _ => .ok (completes_writeF _ _ _)
  | qInv => exact answered_of_bind rfl (qInv_orderly _) fun _ => .ok (completes_writeQ _ _ _)
  | qDiv => exact answered_of_bind rfl (qDiv_orderly _ _) fun _ => .ok (completes_writeQ _ _ _)
  | qSqrt => exact answered_of_bind rfl (qSqrt_orderly _) fun _ => .ok (completes_writeQ _ _ _)
  | sInv => exact answered_of_bind rfl (sInv_orderly _) fun _ => .ok (completes_writeS _ _ _)
  | sDiv => exact answered_of_bind rfl (sDiv_orderly _ _) fun _ => .ok (completes_writeS _ _ _)
  | tInv => exact answered_of_bind rfl (tInv_orderly _) fun _ => .ok (completes_writeT _ _ _)
  | tDiv => exact answered_of_bind rfl (tDiv_orderly _ _) fun _ => .ok (completes_writeT _ _ _)
  | tFinalexp => exact answered_of_bind rfl (tFinalexp_orderly _) fun _ => .ok (completes_writeT _ _ _)
  | pairMl => exact answered_of_bind rfl (pairMl_orderly _ _) fun _ => .ok (completes_writeT _ _ _)
  | pair => exact answered_of_bind rfl (pairFull_orderly _ _) fun _ => .ok (completes_writeT _ _ _)
  | blsVerify =>
    exact answered_of_bind rfl (collapse_orderly (coreVerify_orderly _ _ _)) fun _ => .ok (completes_writeR _ _ _)
  -- Loads.
  | lw | lbu => exact answered_of_bind rfl (memRead_orderly _ _ _) fun _ => .ok (completes_writeR _ _ _)
  | fLdr => exact answered_of_bind rfl (memRead_orderly _ _ _) fun _ => .ok (completes_writeF _ _ _)
  | fLd =>
    exact answered_of_bind rfl (memRead_orderly _ _ _) fun _ =>
      yields_bind (canonical_orderly _) fun _ => .ok (completes_writeF _ _ _)
  | kLd | kLdsk =>
    exact answered_of_bind rfl (memRead_orderly _ _ _) fun _ => yields_guard _ (.ok (completes_writeK _ _ _))
  | g1Ldc =>
    exact answered_of_bind rfl (memRead_orderly _ _ _) fun _ =>
      yields_bind (decompress1_orderly _) fun _ => .ok (completes_writeG _ _ _)
  | g1Ldu =>
    exact answered_of_bind rfl (memRead_orderly _ _ _) fun _ =>
      yields_bind (decodeU1_orderly _) fun _ => .ok (completes_writeG _ _ _)
  | g2Ldc =>
    exact answered_of_bind rfl (memRead_orderly _ _ _) fun _ =>
      yields_bind (decompress2_orderly _) fun _ => .ok (completes_writeH _ _ _)
  | g2Ldu =>
    exact answered_of_bind rfl (memRead_orderly _ _ _) fun _ =>
      yields_bind (decodeU2_orderly _) fun _ => .ok (completes_writeH _ _ _)
  -- Stores.
  | sw | sb | fSt | kSt | g1Stc | g1Stu | g2Stc | g2Stu => exact answered_of_store rfl
  | g1Staffn | g2Staffn => exact answered_of_bind rfl (regRun_orderly _ _ _) fun _ => memWrite_yields _ _ _
  -- Hashing and signatures.
  | h2cXmd =>
    exact answered_of_retire rfl <| yields_guard _ <| yields_bind (memRead_orderly _ _ _) fun _ => memWrite_yields _ _ _
  | h2cH2f =>
    exact answered_of_bind rfl (memRead_orderly _ _ _) fun _ =>
      .ok ((completes_writeQ _ _ _).trans (completes_writeQ _ _ _))
  | h2cHash => exact answered_of_bind rfl (memRead_orderly _ _ _) fun _ => .ok (completes_writeH _ _ _)
  | blsPk => exact answered_of_retire rfl <| yields_guard _ (.ok (completes_writeG _ _ _))
  | blsSign =>
    exact answered_of_retire rfl <| yields_guard _ <| yields_bind (memRead_orderly _ _ _) fun _ =>
      .ok ((completes_writeH _ _ _).trans (completes_writeH _ _ _))
  | blsSignp => exact answered_of_retire rfl <| yields_guard _ (.ok (completes_writeH _ _ _))
  | blsVerifyb =>
    exact answered_of_bind rfl (memRead_orderly _ _ _) fun _ =>
      yields_bind (collapse_orderly (coreVerify_orderly _ _ _)) fun _ => .ok (completes_writeR _ _ _)
  | blsAggpk =>
    exact answered_of_retire rfl <| yields_guard _ <| yields_bind (regRun_orderly _ _ _) fun _ =>
      .ok (completes_writeG _ _ _)
  | blsAggsig =>
    exact answered_of_retire rfl <| yields_guard _ <| yields_bind (regRun_orderly _ _ _) fun _ =>
      .ok (completes_writeH _ _ _)
  | blsVerifyn =>
    exact answered_of_retire rfl <| yields_guard _ <| yields_guard _ <| yields_bind (regRun_orderly _ _ _) fun _ =>
      yields_bind (regRun_orderly _ _ _) fun _ =>
        yields_bind (collapse_orderly (batchVerify_orderly _ _ _)) fun _ => .ok (completes_writeR _ _ _)
  -- The instructions whose meaning branches.
  | qGet a b n => exact qGet_answered a b n s
  | sGet a b n => exact sGet_answered a b n s
  | tGet a b n => exact tGet_answered a b n s
  | fSqrt a b c => exact fSqrt_answered a b c s
  | g1Getaff a b c => exact g1Getaff_answered a b c s
  | g2Getaff a b c => exact g2Getaff_answered a b c s
  | h2cDst b c => exact h2cDst_answered b c s

end Sys2Proof.Machine
end

section
/-! PROOFS. The sequencer and the invariant (spec/10_state.md): one inversion of `step` and one of `hostWrite`, and
from each that the invariant is kept. -/

namespace Sys2Proof.Machine

open Sys2Proof

/-! One step. -/

theorem step_not_busy (s : State) (hs : s.status ≠ .busy) : step s = .next s := by
  unfold step
  cases h : s.status with
  | busy => exact absurd h hs
  | idle | done | error => rfl

theorem step_of_fetch_ok {s : State} {i : Instr} (hb : s.status = .busy) (h : fetchInstr s = .ok i) :
    step s = exec i s := by
  simp only [step, hb, h]

theorem step_of_fetch_error {s : State} {e : Exn} (hb : s.status = .busy) (h : fetchInstr s = .error e) :
    step s = .next (takeException s e) := by
  simp only [step, hb, h]

/-- While BUSY, a step is the instruction at `pc`, or an exception of the fetch or the decoder. -/
theorem step_busy_cases {s : State} (hb : s.status = .busy) :
    (∃ i, fetchInstr s = .ok i ∧ step s = exec i s) ∨
    ∃ e, Raisable e ∧ step s = .next (takeException s e) := by
  have hfetch := fetchInstr_orderly s
  generalize h : fetchInstr s = fetched at hfetch ⊢
  cases hfetch with
  | ok _ => exact .inl ⟨_, rfl, step_of_fetch_ok hb h⟩
  | error he => exact .inr ⟨_, he, step_of_fetch_error hb h⟩

theorem exec_inversion {i : Instr} {s u : State} (h : exec i s = .next u) : Executes i s u := by
  obtain ⟨v, hv, hex⟩ := exec_answered i s
  cases hv.symm.trans h
  exact hex

/-- Everything a step of a BUSY state can go to: what `Executes` lists for some instruction. -/
theorem step_inversion {s u : State} (hb : s.status = .busy) (h : step s = .next u) :
    (∃ i, fetchInstr s = .ok i ∧ Executes i s u) ∨ ∃ e, Raisable e ∧ u = takeException s e := by
  obtain ⟨i, hi, hstep⟩ | ⟨e, he, hstep⟩ := step_busy_cases hb
  · exact .inl ⟨i, hi, exec_inversion (hstep.symm.trans h)⟩
  · cases hstep.symm.trans h
    exact .inr ⟨e, he, rfl⟩

/-! The sequencer's statements. -/

/-- Settles O4: fetch answers the word at `pc`, and the decoder its instruction. -/
theorem stepRunsDecodedInstruction : Obligations.StepRunsDecodedInstruction := by
  intro s i hb hpc hdec
  have hfetch : fetchInstr s = .ok i := by
    obtain ⟨hout, _⟩ | ⟨_, e, he, _⟩ | ⟨_, j, hj, hfetch⟩ := fetchInstr_cases s
    · omega
    · cases he.symm.trans hdec
    · cases hj.symm.trans hdec
      exact hfetch
  exact step_of_fetch_ok hb hfetch

/-- Settles O6, from the inversions of `exec` and `step`. -/
theorem everyStepAnswersANextState : Obligations.EveryStepAnswersANextState := by
  have hexec : ∀ (i : Instr) (s : State), ∃ u, exec i s = .next u := fun i s =>
    have ⟨u, hu, _⟩ := exec_answered i s
    ⟨u, hu⟩
  refine ⟨⟨fun s => ?_, hexec⟩, step_not_busy⟩
  by_cases hb : s.status = .busy
  · obtain ⟨i, _, hstep⟩ | ⟨e, _, hstep⟩ := step_busy_cases hb <;> rw [hstep]
    · exact hexec i s
    · exact ⟨_, rfl⟩
  · exact ⟨s, step_not_busy s hb⟩

/-- Settles O8, case by case of the inversion of `exec`. -/
theorem instructionsLeaveTheHostSideAlone : Obligations.InstructionsLeaveTheHostSideAlone := by
  intro i s u h
  cases exec_inversion h with
  | halts hi => exact ⟨.inr (.inl ⟨hi, rfl⟩), fun _ => rfl⟩
  | tags b c _ hi => exact ⟨.inl ⟨rfl, rfl, rfl, rfl, rfl, rfl, rfl, rfl⟩, fun hne => absurd hi (hne b c)⟩
  | completes _ hu => exact ⟨.inl hu.control, fun _ => hu.tag⟩
  | raises e => exact ⟨.inr (.inr ⟨e.cause, e.info, rfl⟩), fun _ => rfl⟩

/-! Reset. -/

/-- Settles O9: each value of R52 is the one `State.reset` gives, for every register number. -/
theorem resetLeavesTheValuesOfR52 : Obligations.ResetLeavesTheValuesOfR52 := by
  refine ⟨fun i => ?_, rfl, rfl, rfl, rfl, rfl, rfl, rfl, rfl, rfl, rfl, fun _ => rfl⟩
  simp [readR, readF, readQ, readS, readT, readG, readH, readK, State.reset, Vector.get_eq_getElem, toFp]

/-- Settles O10. -/
theorem resetSatisfiesTheInvariant : Obligations.ResetSatisfiesTheInvariant where
  dmem := reset_wf.1
  imem := reset_wf.2
  tag := Nat.zero_le _
  zeroReg := rfl
  intrEnable := rfl
  intrState := rfl
  cause := .inl rfl
  record := ⟨fun _ => ⟨rfl, rfl, rfl⟩, nofun⟩

/-! Each way a BUSY state goes on keeps the invariant. -/

/-- Setting bits that are not reserved keeps the reserved bits zero (R49, R50). -/
theorem or_reserved_zero {w x : Word} (hw : w &&& 3 = w) (hx : x &&& 3 = x) : (w ||| x) &&& 3 = w ||| x := by
  rw [BitVec.and_or_distrib_right, hw, hx]

/-- Clearing bits keeps the reserved bits zero (R49, R50). -/
theorem and_reserved_zero {w : Word} (hw : w &&& 3 = w) (x : Word) : w &&& x &&& 3 = w &&& x := by
  rw [BitVec.and_assoc, BitVec.and_comm x, ← BitVec.and_assoc, hw]

/-- No cause has the code 0, which stands for no exception (R46, R471). -/
theorem ecause_ne_zero (c : Cause) : BitVec.ofNat 32 (causeCode c) ≠ 0 := by
  cases c <;> decide

/-- `ECAUSE` is a byte, so the host reads it whole (R46). -/
theorem legalEcause_and_ff {w : Word} (hw : LegalEcause w) : w &&& 0xFF = w := by
  obtain rfl | ⟨c, _, rfl⟩ := hw
  · rfl
  · cases c <;> rfl

theorem not_error_of_busy {s : State} (hb : s.status = .busy) : s.status ≠ .error := by
  rw [hb]
  decide

/-- A run that has not ended in an exception records none (R46). -/
theorem runRecord_of_not_error {s u : State} (hs : RunRecord s) (hne : s.status ≠ .error) (hu : u.status ≠ .error)
    (hc : u.ecause = s.ecause) (hp : u.epc = s.epc) (hi : u.einfo = s.einfo) : RunRecord u := by
  obtain ⟨hsc, hsp, hsi⟩ := hs.1 hne
  exact ⟨fun _ => ⟨hc.trans hsc, hp.trans hsp, hi.trans hsi⟩, fun h => absurd h hu⟩

theorem inv_of_completes {s u : State} (hs : Inv s) (hb : s.status = .busy) (h : Completes s u) : Inv u where
  dmem := h.dmem hs.dmem
  imem := h.control.imem ▸ hs.imem
  tag := h.tag ▸ hs.tag
  zeroReg := h.zeroReg.trans hs.zeroReg
  intrEnable := h.control.intrEnable ▸ hs.intrEnable
  intrState := h.control.intrState ▸ hs.intrState
  cause := h.control.ecause ▸ hs.cause
  record := runRecord_of_not_error hs.record (not_error_of_busy hb) (h.control.status ▸ not_error_of_busy hb)
    h.control.ecause h.control.epc h.control.einfo

theorem inv_setTag {s : State} (hs : Inv s) (tag : List Byte) (htag : tag.length ≤ Config.dstMax) :
    Inv (setTag s tag) :=
  ⟨hs.dmem, hs.imem, htag, hs.zeroReg, hs.intrEnable, hs.intrState, hs.cause, hs.record⟩

theorem inv_haltRun {s : State} (hs : Inv s) (hb : s.status = .busy) : Inv (haltRun s) where
  dmem := hs.dmem
  imem := hs.imem
  tag := hs.tag
  zeroReg := hs.zeroReg
  intrEnable := hs.intrEnable
  intrState := or_reserved_zero hs.intrState rfl
  cause := hs.cause
  record := runRecord_of_not_error hs.record (not_error_of_busy hb) (by simp) rfl rfl rfl

theorem inv_takeException {s : State} (hs : Inv s) {e : Exn} (he : Raisable e) : Inv (takeException s e) where
  dmem := hs.dmem
  imem := hs.imem
  tag := hs.tag
  zeroReg := hs.zeroReg
  intrEnable := hs.intrEnable
  intrState := or_reserved_zero hs.intrState rfl
  cause := .inr ⟨e.cause, he.1, rfl⟩
  record := ⟨fun h => absurd rfl h, fun _ => ⟨ecause_ne_zero e.cause, rfl⟩⟩

theorem inv_of_executes {i : Instr} {s u : State} (hs : Inv s) (hb : s.status = .busy) (h : Executes i s u) :
    Inv u := by
  cases h with
  | halts => exact inv_haltRun hs hb
  | tags _ _ tag _ htag => exact inv_of_completes (inv_setTag hs tag htag) hb (completes_setPc _ _)
  | completes _ hu => exact inv_of_completes hs hb hu
  | raises _ he => exact inv_takeException hs he

/-- Settles O11: a state that is not BUSY stays as it is, and each way a BUSY state can go on keeps the invariant. -/
theorem everyStepKeepsTheInvariant : Obligations.EveryStepKeepsTheInvariant := by
  intro s u hs h
  by_cases hb : s.status = .busy
  · obtain ⟨i, _, hex⟩ | ⟨e, he, rfl⟩ := step_inversion hb h
    · exact inv_of_executes hs hb hex
    · exact inv_takeException hs he
  · rw [step_not_busy s hb] at h
    cases h
    exact hs

end Sys2Proof.Machine
end

section
/-! PROOFS. The host window (spec/20_memory.md R77, R78; spec/10_state.md R42 to R50): what a host write can do, and
what the host reads of a run. -/

namespace Sys2Proof.Machine

open Sys2Proof

/-! Host writes. -/

/-- Everything a host write can do to `s`. -/
inductive HostWrites (s : State) : State → Prop
  /-- A write that is ignored (R42, R78). -/
  | ignored : HostWrites s s
  /-- A word of the IMEM image (R86). -/
  | imem (l : List (Nat × BitVec 32)) : HostWrites s { s with imem := l }
  /-- A word of the DMEM image (R87). -/
  | dmem (m : List Host.Cell) : HostWrites s (setDmem s m)
  /-- START (R43). -/
  | starts : HostWrites s (startRun s)
  /-- `START_PC` (R43). -/
  | startPc (v : Word) : HostWrites s { s with startPc := v }
  /-- `INTR_ENABLE` (R49). -/
  | intrEnable (v : Word) : HostWrites s { s with intrEnable := v &&& 3 }
  /-- `INTR_STATE` (R50). -/
  | intrState (v : Word) : HostWrites s { s with intrState := s.intrState &&& ~~~v }

theorem writeHostReg_inversion (s : State) (off : Nat) (v : Word) : HostWrites s (writeHostReg s off v) := by
  unfold writeHostReg
  split
  · split
    · exact .ignored
    · split
      · exact .starts
      · exact .ignored
  · split
    · exact .ignored
    · exact .startPc v
  · exact .intrEnable v
  · exact .intrState v
  · exact .ignored

theorem hostWrite_inversion (s : State) (off : Nat) (v : Word) : HostWrites s (hostWrite s off v) := by
  unfold hostWrite
  split
  · exact .ignored
  split
  · split
    · exact .ignored
    · exact .imem _
  split
  · split
    · exact .ignored
    · exact .dmem _
  · exact writeHostReg_inversion s off v

/-- Settles O12: what a host write can do keeps the registers' part of the invariant, and `hostWrite_wf` says that the
memories keep their canonical form. -/
theorem hostWritesKeepTheInvariant : Obligations.HostWritesKeepTheInvariant := by
  intro s off v hs
  obtain ⟨hdmem, himem⟩ := hostWrite_wf s off v hs.dmem hs.imem
  have hwrites := hostWrite_inversion s off v
  generalize hostWrite s off v = u at hdmem himem hwrites ⊢
  cases hwrites with
  | ignored => exact hs
  | imem l => exact { hs with imem := himem }
  | dmem m => exact { hs with dmem := hdmem }
  | starts =>
    have hrecord : RunRecord (startRun s) := ⟨fun _ => ⟨rfl, rfl, rfl⟩, nofun⟩
    exact { hs with cause := .inl rfl, record := hrecord }
  | startPc v => exact { hs with }
  | intrEnable v => exact { hs with intrEnable := by rw [BitVec.and_assoc]; rfl }
  | intrState v => exact { hs with intrState := and_reserved_zero hs.intrState _ }

/-! The registers by offset. -/

@[simp] theorem hostRead_status (s : State) : hostRead s 0x04 = statusWord s.status := rfl
@[simp] theorem hostRead_startPc (s : State) : hostRead s 0x08 = s.startPc := rfl
@[simp] theorem hostRead_ecause (s : State) : hostRead s 0x0C = s.ecause &&& 0xFF := rfl
@[simp] theorem hostRead_epc (s : State) : hostRead s 0x10 = s.epc := rfl
@[simp] theorem hostRead_einfo (s : State) : hostRead s 0x14 = s.einfo := rfl
@[simp] theorem hostRead_intrEnable (s : State) : hostRead s 0x18 = s.intrEnable &&& 3 := rfl
@[simp] theorem hostRead_intrState (s : State) : hostRead s 0x1C = s.intrState &&& 3 := rfl

theorem hostWrite_cmd (s : State) (v : Word) :
    hostWrite s 0x00 v = if s.status = .busy then s else if v.getLsbD 0 then startRun s else s := rfl
theorem hostWrite_startPc (s : State) (v : Word) :
    hostWrite s 0x08 v = if s.status = .busy then s else { s with startPc := v } := rfl
theorem hostWrite_intrEnable (s : State) (v : Word) : hostWrite s 0x18 v = { s with intrEnable := v &&& 3 } := rfl
theorem hostWrite_intrState (s : State) (v : Word) :
    hostWrite s 0x1C v = { s with intrState := s.intrState &&& ~~~v } := rfl

/-- The register range ends below the memory images (R77). -/
theorem readHostReg_of_image (s : State) {off : Nat} (h : 0x4000 ≤ off) : readHostReg s off = 0 := by
  unfold readHostReg
  split
  case h_8 => rfl
  all_goals omega

/-- While BUSY the memory images read 0 (R78). -/
theorem hostRead_busy_image {s : State} (hb : s.status = .busy) {off : Nat} (h : 0x4000 ≤ off) :
    hostRead s off = 0 := by
  simp [hostRead, hb, readHostReg_of_image s h]

theorem writeHostReg_busy {s : State} (hb : s.status = .busy) {off : Nat} (v : Word) (he : off ≠ 0x18)
    (hi : off ≠ 0x1C) : writeHostReg s off v = s := by
  unfold writeHostReg
  split
  · rw [if_pos hb]
  · rw [if_pos hb]
  · exact absurd rfl he
  · exact absurd rfl hi
  · rfl

/-- While BUSY a write to anything but the interrupt registers is ignored (R78). -/
theorem hostWrite_busy {s : State} (hb : s.status = .busy) {off : Nat} (v : Word) (he : off ≠ 0x18)
    (hi : off ≠ 0x1C) : hostWrite s off v = s := by
  simp [hostWrite, hb, writeHostReg_busy hb v he hi]

/-! What the host reads of a run. -/

/-- A masked word has no bit above the mask. -/
theorem getLsbD_and_of_lt (x m : Word) {n k : Nat} (hm : m.toNat < 2 ^ n) (hk : n ≤ k) :
    (x &&& m).getLsbD k = false := by
  have hbit : m.getLsbD k = false :=
    Nat.testBit_lt_two_pow (Nat.lt_of_lt_of_le hm (Nat.pow_le_pow_right (by decide) hk))
  rw [BitVec.getLsbD_and, hbit, Bool.and_false]

/-- Under the invariant the masks of R46, R49 and R50 hide nothing. -/
theorem hostRead_of_inv {s : State} (hs : Inv s) :
    hostRead s 0x0C = s.ecause ∧ hostRead s 0x18 = s.intrEnable ∧ hostRead s 0x1C = s.intrState :=
  ⟨(hostRead_ecause s).trans (legalEcause_and_ff hs.cause), (hostRead_intrEnable s).trans hs.intrEnable,
    (hostRead_intrState s).trans hs.intrState⟩

/-- A step of a BUSY state leaves the host side alone, ends DONE, or takes an exception. -/
theorem step_control {s u : State} (hb : s.status = .busy) (h : step s = .next u) :
    SameControl s u ∨ u = haltRun s ∨ ∃ e, Raisable e ∧ u = takeException s e := by
  obtain ⟨i, _, hex⟩ | hraise := step_inversion hb h
  · cases hex with
    | halts => exact .inr (.inl rfl)
    | tags => exact .inl ⟨rfl, rfl, rfl, rfl, rfl, rfl, rfl, rfl⟩
    | completes _ hu => exact .inl hu.control
    | raises e he => exact .inr (.inr ⟨e, he, rfl⟩)
  · exact .inr (.inr hraise)

/-- The bit of `INTR_STATE` that tells how a run ended is set after the step that ends it (R50). -/
theorem step_sets_interrupt {s u : State} (hb : s.status = .busy) (h : step s = .next u) :
    (u.status = .done → u.intrState.getLsbD 0 = true) ∧ (u.status = .error → u.intrState.getLsbD 1 = true) := by
  obtain hsame | rfl | ⟨e, _, rfl⟩ := step_control hb h
  · rw [hsame.status, hb]
    exact ⟨nofun, nofun⟩
  · exact ⟨fun _ => by simp, nofun⟩
  · exact ⟨nofun, fun _ => by simp⟩

/-- START, and what BUSY ignores and hides (R43, R78). -/
theorem hostWindow_start_and_busy (s : State) (v : Word) (off : Nat) :
    (s.status ≠ .busy →
      (v.getLsbD 0 = true → hostWrite s 0x00 v = startRun s) ∧
      (v.getLsbD 0 = false → hostWrite s 0x00 v = s) ∧
      hostWrite s 0x08 v = { s with startPc := v }) ∧
    (s.status = .busy →
      (off ≠ 0x18 → off ≠ 0x1C → hostWrite s off v = s) ∧
      (0x4000 ≤ off → hostRead s off = 0)) := by
  refine ⟨fun hb => ?_, fun hb => ⟨hostWrite_busy hb v, hostRead_busy_image hb⟩⟩
  rw [hostWrite_cmd, hostWrite_startPc, if_neg hb, if_neg hb]
  exact ⟨fun hv => if_pos hv, fun hv => if_neg (hv ▸ Bool.false_ne_true), rfl⟩

/-- What the host reads after a step, by how the step went, from a state with the invariant (R44, R46, R50, R470). -/
theorem hostRead_after_step {s u : State} (hs : Inv s) (hb : s.status = .busy) (h : step s = .next u) :
    (hostRead u 0x04 = 1 ∧ hostRead u 0x0C = 0 ∧ hostRead u 0x1C = s.intrState) ∨
    (hostRead u 0x04 = 2 ∧ hostRead u 0x0C = 0 ∧ hostRead u 0x10 = 0 ∧ hostRead u 0x14 = 0 ∧
      hostRead u 0x1C = s.intrState ||| 1) ∨
    (hostRead u 0x04 = 3 ∧ ∃ c info, u = trapped s c info ∧ c ≠ .noDivisorIndex ∧
      hostRead u 0x0C = BitVec.ofNat 32 (causeCode c) ∧ hostRead u 0x10 = s.pc ∧ hostRead u 0x14 = info ∧
      hostRead u 0x1C = s.intrState ||| 2) := by
  obtain ⟨hcause, _, hintr⟩ := hostRead_of_inv (everyStepKeepsTheInvariant s u hs h)
  obtain ⟨hecause, hepc, heinfo⟩ := hs.record.1 (not_error_of_busy hb)
  rw [hcause, hintr]
  obtain hsame | rfl | ⟨e, he, rfl⟩ := step_control hb h
  · exact .inl ⟨by rw [hostRead_status, hsame.status, hb]; rfl, hsame.ecause.trans hecause, hsame.intrState⟩
  · exact .inr (.inl ⟨rfl, hecause, hepc, heinfo, rfl⟩)
  · exact .inr (.inr ⟨rfl, e.cause, e.info, rfl, he.1, rfl, rfl, rfl, rfl⟩)

/-- Settles O59, from the registers by offset, the inversion of `step` and the invariant of the state it ends in. -/
theorem hostRegistersStartAndInterrupts : Obligations.HostRegistersStartAndInterrupts := by
  refine ⟨fun s v off => ?_, fun s v => ?_, fun s => ?_, fun s u hs hb h => ?_⟩
  · obtain ⟨hstart, hbusy⟩ := hostWindow_start_and_busy s v off
    exact ⟨hstart, hbusy, rfl, hostRead_startPc s, hostRead_epc s, hostRead_einfo s,
      fun hb => by rw [hostRead_status, hb]; rfl⟩
  · refine ⟨rfl, ?_, hostWrite_intrState s v, fun u hb h => ?_, ?_, ?_⟩
    · rw [hostRead_intrEnable, hostWrite_intrEnable, BitVec.and_assoc]
      rfl
    · exact step_sets_interrupt (s := hostWrite s 0x1C v) hb h
    · simp [irqDone]
    · simp [irqError]
  · refine ⟨?_, fun k hk => ?_, fun k hk => ⟨?_, ?_⟩, hostRead_of_inv⟩
    · rw [hostRead_status]
      cases s.status <;> rfl
    · exact getLsbD_and_of_lt _ _ (by decide) hk
    · exact getLsbD_and_of_lt _ _ (by decide) hk
    · exact getLsbD_and_of_lt _ _ (by decide) hk
  · obtain ⟨h4, hbusy⟩ | ⟨h4, hdone⟩ | ⟨h4, herror⟩ := hostRead_after_step hs hb h <;> rw [h4]
    · exact ⟨.inl rfl, fun _ => hbusy, fun h => absurd h (by decide), fun h => absurd h (by decide)⟩
    · exact ⟨.inr (.inl rfl), fun h => absurd h (by decide), fun _ => hdone, fun h => absurd h (by decide)⟩
    · exact ⟨.inr (.inr rfl), fun h => absurd h (by decide), fun h => absurd h (by decide), fun _ => herror⟩

end Sys2Proof.Machine
end

section
/-! PROOFS. The memory images of the host window (spec/20_memory.md R77, R86, R87): a word as four bytes of DMEM, which
offsets belong to an image, and what a host access does there and at an offset that maps to nothing. -/

namespace Sys2Proof.Machine

open Sys2Proof

/-! A word in DMEM (R71). -/

/-- The bytes of a word, the most significant first. -/
theorem i2osp_word (w : Word) :
    i2osp w.toNat 4 = [w.extractLsb' 24 8, w.extractLsb' 16 8, w.extractLsb' 8 8, w.extractLsb' 0 8] := by
  simp [i2osp, BitVec.extractLsb', Nat.shiftRight_eq_div_pow]

theorem ofNat_os2ip_i2osp_word (w : Word) : BitVec.ofNat 32 (os2ip (i2osp w.toNat 4)) = w := by
  have hlt : w.toNat < 256 ^ 4 := w.isLt
  rw [os2ip_i2osp, Nat.mod_eq_of_lt hlt, BitVec.ofNat_toNat, BitVec.setWidth_eq]

theorem readBytes_writeBytes_word {m : List Host.Cell} {a : Nat} (w : Word) (ha : a + 4 ≤ Config.dmemBytes)
    (h : Memory.wf m) : readBytes (writeBytes m a (i2osp w.toNat 4)) a 4 = i2osp w.toNat 4 := by
  simpa using readBytes_writeBytes Config.dmemBytes m a (i2osp w.toNat 4) (by simpa using ha) h

/-- In canonical memory, the four cells a word was written to hold its bytes. -/
theorem cellsRead_writeBytes_word {m : List Host.Cell} {a : Nat} (w : Word) (ha : a + 4 ≤ Config.dmemBytes)
    (h : Memory.wf m) :
    let m' := writeBytes m a (i2osp w.toNat 4)
    cellsRead m' a = w.extractLsb' 24 8 ∧ cellsRead m' (a + 1) = w.extractLsb' 16 8 ∧
    cellsRead m' (a + 2) = w.extractLsb' 8 8 ∧ cellsRead m' (a + 3) = w.extractLsb' 0 8 := by
  intro m'
  have hread : readBytes m' a 4 = i2osp w.toNat 4 := readBytes_writeBytes_word w ha h
  simpa [i2osp_word, readBytes] using hread

/-! The offsets of the images (R77). Their ends are read from `Config`: only that IMEM's image ends before DMEM's begins
and that DMEM is a whole number of words rest on its values. -/

theorem inImem_iff (off : Nat) : inImem off = true ↔ 0x4000 ≤ off ∧ off < 0x4000 + 4 * Config.imemWords := by
  rw [inImem, Bool.and_eq_true, decide_eq_true_eq, decide_eq_true_eq]
  rfl

theorem inDmem_iff (off : Nat) : inDmem off = true ↔ 0x10000 ≤ off ∧ off < 0x10000 + Config.dmemBytes := by
  rw [inDmem, Bool.and_eq_true, decide_eq_true_eq, decide_eq_true_eq]
  rfl

theorem imemImage_end_le_dmemImage : 0x4000 + 4 * Config.imemWords ≤ 0x10000 := by decide

theorem inImem_word {i : Nat} (hi : i < Config.imemWords) : inImem (0x4000 + 4 * i) = true :=
  (inImem_iff _).mpr (by omega)

theorem inDmem_word {i : Nat} (hi : 4 * i < Config.dmemBytes) : inDmem (0x10000 + 4 * i) = true :=
  (inDmem_iff _).mpr (by omega)

theorem inImem_of_dmem_offset (k : Nat) : inImem (0x10000 + k) = false := by
  have hends := imemImage_end_le_dmemImage
  rw [Bool.eq_false_iff, Ne, inImem_iff]
  omega

/-- A word that begins inside DMEM ends inside it. -/
theorem word_fits_dmem {i : Nat} (hi : 4 * i < Config.dmemBytes) : 4 * i + 4 ≤ Config.dmemBytes := by
  have hwhole : Config.dmemBytes % 4 = 0 := by decide
  omega

/-! Accesses to a word of an image (R86, R87). -/

section
variable {s : State} {i : Nat} (hb : s.status ≠ .busy)
include hb

theorem hostRead_imem (hi : i < Config.imemWords) : hostRead s (0x4000 + 4 * i) = cellsRead s.imem i := by
  simp [hostRead, inImem_word hi, hb, imemImage, Nat.add_mod]

theorem hostWrite_imem (hi : i < Config.imemWords) (v : Word) :
    hostWrite s (0x4000 + 4 * i) v = { s with imem := cellsWrite s.imem i v } := by
  simp [hostWrite, inImem_word hi, hb, imemImage, Nat.add_mod]

theorem hostRead_dmem (hi : 4 * i < Config.dmemBytes) :
    hostRead s (0x10000 + 4 * i) = BitVec.ofNat 32 (os2ip (readBytes s.dmem (4 * i) 4)) := by
  simp [hostRead, inImem_of_dmem_offset, inDmem_word hi, hb, dmemImage, Nat.add_mod]

theorem hostWrite_dmem (hi : 4 * i < Config.dmemBytes) (v : Word) :
    hostWrite s (0x10000 + 4 * i) v = setDmem s (writeBytes s.dmem (4 * i) (i2osp v.toNat 4)) := by
  simp [hostWrite, inImem_of_dmem_offset, inDmem_word hi, hb, dmemImage, Nat.add_mod]

end

/-! Offsets that map to nothing (R77): not aligned, or outside the registers and both images. -/

/-- The register range ends at 0x20 (R42). -/
theorem hostReg_of_above (s : State) (v : Word) {off : Nat} (h : 0x20 ≤ off) :
    readHostReg s off = 0 ∧ writeHostReg s off v = s := by
  constructor
  · unfold readHostReg
    split
    case h_8 => rfl
    all_goals omega
  · unfold writeHostReg
    split
    case h_5 => rfl
    all_goals omega

theorem host_unaligned (s : State) (v : Word) {off : Nat} (h : off % 4 ≠ 0) :
    hostRead s off = 0 ∧ hostWrite s off v = s :=
  ⟨if_pos h, if_pos h⟩

theorem host_outside_images (s : State) (v : Word) {off : Nat} (hreg : 0x20 ≤ off) (himem : ¬inImem off = true)
    (hdmem : ¬inDmem off = true) : hostRead s off = 0 ∧ hostWrite s off v = s := by
  obtain ⟨hread, hwrite⟩ := hostReg_of_above s v hreg
  constructor
  · simp [hostRead, himem, hdmem, hread]
  · simp [hostWrite, himem, hdmem, hwrite]

theorem host_unmapped (s : State) (v : Word) {off : Nat}
    (h : off % 4 ≠ 0 ∨ (0x20 ≤ off ∧ off < 0x4000) ∨ (0x4000 + 4 * Config.imemWords ≤ off ∧ off < 0x10000) ∨
      0x10000 + Config.dmemBytes ≤ off) :
    hostRead s off = 0 ∧ hostWrite s off v = s := by
  obtain hodd | houtside := h
  · exact host_unaligned s v hodd
  · have hends := imemImage_end_le_dmemImage
    refine host_outside_images s v (by omega) ?_ ?_
    · rw [inImem_iff]
      omega
    · rw [inDmem_iff]
      omega

/-- Settles O60: an access to a word of an image is an access to the memory's cells, where the laws of `cellsWrite` and
`writeBytes` say what is read afterwards. -/
theorem hostWindowImages : Obligations.HostWindowImages := by
  intro s v i hdmem himem hb
  refine ⟨fun hi => ?_, fun hi => ?_, host_unmapped s v⟩
  · have hsame := cellsRead_write_same s.imem i v himem.1
    rw [hostWrite_imem hb hi v]
    refine ⟨hsame, fun j hj => cellsRead_write_other s.imem i j v hj, ?_, rfl⟩
    rw [hostRead_imem (by exact hb) hi, hsame]
  · have hfits := word_fits_dmem hi
    obtain ⟨h0, h1, h2, h3⟩ := cellsRead_writeBytes_word v hfits hdmem
    rw [hostWrite_dmem hb hi v]
    refine ⟨h0, h1, h2, h3, fun j hj => cellsRead_writeBytes_other _ _ _ _ (by simpa using hj), ?_, rfl⟩
    rw [hostRead_dmem (by exact hb) hi, setDmem_dmem, readBytes_writeBytes_word v hfits hdmem,
      ofNat_os2ip_i2osp_word]

end Sys2Proof.Machine
end

section
/-! PROOFS. Decoding and encoding are inverse to each other, and the decoder accepts the rows of the opcode map
(spec/30_encoding.md R101 to R113). That a matched row is accepted is reduced to finitely many words: the decoder asks
of a word its opcode, its `n` and zeros (`FitsShape.decode_accepts`), so a row is accepted when its fullest words
are. -/

namespace Sys2Proof

/-! The forms of a row of the decoder. -/

theorem all_beq_zero_iff (unused : List RegIdx) : unused.all (· == 0) = true ↔ ∀ x ∈ unused, x = 0 := by simp

@[simp] theorem plain_eq_ok_iff {unused : List RegIdx} {i j : Instr} :
    plain unused i = .ok j ↔ (∀ x ∈ unused, x = 0) ∧ i = j := by
  rw [plain, ← all_beq_zero_iff]
  split <;> simp [*]

@[simp] theorem getForm_eq_ok_iff {w : Word} {unused : List RegIdx} {bound : Nat} {i j : Instr} :
    getForm w unused bound i = .ok j ↔ (∀ x ∈ unused, x = 0) ∧ (fieldN4 w).toNat ≤ bound ∧ i = j := by
  rw [getForm, ← all_beq_zero_iff]
  split
  · split <;> simp [*]
  · simp [*]

@[simp] theorem toFin_fieldN4 (w : Word) : (fieldN4 w).toFin = fieldN w := rfl

/-! A word is known by its fields. The opcode is given by its two digits, as the decoder reads it (R103). -/

theorem opcode_eq_iff (w : Word) (op : Nat) :
    BitVec.ofNat 8 op = BitVec.ofNat 8 (fieldOp w) ↔ op / 16 % 16 = fieldOp w / 16 ∧ op % 16 = fieldOp w % 16 := by
  have hlt := fieldOp_lt w
  rw [← BitVec.toNat_inj, BitVec.toNat_ofNat, BitVec.toNat_ofNat]
  omega

theorem encR_eq_iff {w : Word} {op : Nat} {a b c d e n : RegIdx} :
    encR op a b c d e n = w ↔ (op / 16 % 16 = fieldOp w / 16 ∧ op % 16 = fieldOp w % 16) ∧ a = fieldA w ∧
      b = fieldB w ∧ c = fieldC w ∧ d = fieldD w ∧ e = fieldE w ∧ n.val = (fieldN w).val := by
  constructor
  · rintro rfl
    simp
    omega
  · rintro ⟨hop, rfl, rfl, rfl, rfl, rfl, hn⟩
    rw [encR, (opcode_eq_iff w op).mpr hop, Fin.ext hn]
    exact encR_fields w

theorem encI_eq_iff {w : Word} {op : Nat} {a b : RegIdx} {imm : BitVec 16} :
    encI op a b imm = w ↔ (op / 16 % 16 = fieldOp w / 16 ∧ op % 16 = fieldOp w % 16) ∧ a = fieldA w ∧
      b = fieldB w ∧ imm = fieldImm w := by
  constructor
  · rintro rfl
    simp
    omega
  · rintro ⟨hop, rfl, rfl, rfl⟩
    rw [encI, (opcode_eq_iff w op).mpr hop]
    exact encI_fields w

theorem fieldOp_eq_toNat_div (w : Word) : fieldOp w = w.toNat / 2 ^ 24 := by
  have hlt : w.toNat / 2 ^ 24 < 2 ^ 8 := by have := w.isLt; omega
  rw [fieldOp, BitVec.extractLsb'_toNat, Nat.shiftRight_eq_div_pow, Nat.mod_eq_of_lt hlt]

theorem fieldN_val_eq_toNat_mod (w : Word) : (fieldN w).val = w.toNat % 16 := by
  simp [fieldN]

/-! The walks over the instructions and over the decoder. -/

/-- `r` reads from `w` no instruction but the one whose word `w` is. -/
def Exact (w : Word) (r : Except DecodeError Instr) : Prop :=
  ∀ i, r = .ok i → i.WellFormed = true ∧ encode i = w

section
variable {w : Word} {unused : List RegIdx} {bound : Nat} {i : Instr}

@[simp] theorem exact_error {e : DecodeError} : Exact w (.error e) := nofun

@[simp] theorem exact_ok_iff : Exact w (.ok i) ↔ i.WellFormed = true ∧ encode i = w := by simp [Exact]

@[simp] theorem exact_plain_iff :
    Exact w (plain unused i) ↔ ((∀ x ∈ unused, x = 0) → i.WellFormed = true ∧ encode i = w) := by
  simp only [Exact, plain_eq_ok_iff]
  exact ⟨fun h hzero => h i ⟨hzero, rfl⟩, fun h _ ⟨hzero, hi⟩ => hi ▸ h hzero⟩

@[simp] theorem exact_getForm_iff :
    Exact w (getForm w unused bound i) ↔
      ((∀ x ∈ unused, x = 0) → (fieldN4 w).toNat ≤ bound → i.WellFormed = true ∧ encode i = w) := by
  simp only [Exact, getForm_eq_ok_iff]
  exact ⟨fun h hzero hn => h i ⟨hzero, hn, rfl⟩, fun h _ ⟨hzero, hn, hi⟩ => hi ▸ h hzero hn⟩

end

/-- Decoding undoes encoding: the opcode of the word leads to the row of its instruction, whose unused fields `encode`
has left zero. The three coefficient reads are also asked for the range of `n`. -/
theorem decode_encode {i : Instr} (h : i.WellFormed = true) : decode (encode i) = .ok i := by
  cases i with
  | qGet a b n => simpa [encode, decode, decodeFp2, Instr.WellFormed] using h
  | sGet a b n => simpa [encode, decode, decodeFp6, Instr.WellFormed] using h
  | tGet a b n => simpa [encode, decode, decodeFp12, Instr.WellFormed] using h
  | _ =>
    simp [encode, decode, decodeControl, decodeInteger, decodeFp, decodeFp2, decodeFp6, decodeFp12, decodeG1, decodeG2,
      decodePairing, decodeHashToCurve, decodeBls, decodeScalar, decodePointMemory]

/-- Encoding undoes decoding: in each branch of the decoder, the split on the two digits of the opcode (and on `n` for
the sub-opcodes) and the check of the unused fields name every field of `w` that is not an operand. -/
theorem decode_exact (w : Word) : Exact w (decode w) := by
  unfold decode
  split
  case h_14 => exact exact_error
  all_goals
    simp only [decodeControl, decodeInteger, decodeFp, decodeFp2, decodeFp6, decodeFp12, decodeG1, decodeG2,
      decodePairing, decodeHashToCurve, decodeBls, decodeScalar, decodePointMemory]
    repeat' split
    all_goals simp +contextual [*, encode, encR_eq_iff, encI_eq_iff, Instr.WellFormed]

/-- Settles O1, by the walk over the instructions. -/
theorem decodeInvertsEncode : Obligations.DecodeInvertsEncode := fun _ => decode_encode

/-! What the acceptance of a word depends on: its opcode, `n`, and which other fields are zero. -/

/-- `w` has the opcode and the `n` of `v`, and zeros at least where `v` has them: it uses no field `v` does not use. -/
structure FitsShape (w v : Word) : Prop where
  op : fieldOp w = fieldOp v
  n : fieldN w = fieldN v
  a : fieldA v = 0 → fieldA w = 0
  b : fieldB v = 0 → fieldB w = 0
  c : fieldC v = 0 → fieldC w = 0
  d : fieldD v = 0 → fieldD w = 0
  e : fieldE v = 0 → fieldE w = 0

/-- Both words reach the same branch of the decoder, whose conditions are about `n` and about zero fields only. -/
theorem FitsShape.decode_accepts {w v : Word} (h : FitsShape w v) :
    (∃ i, decode v = .ok i) → ∃ i, decode w = .ok i := by
  obtain ⟨hop, hn, ha, hb, hc, hd, he⟩ := h
  have hn4 : fieldN4 w = fieldN4 v := congrArg BitVec.ofFin hn
  unfold decode
  rw [hop]
  split
  case h_14 => exact id
  all_goals
    simp only [decodeControl, decodeInteger, decodeFp, decodeFp2, decodeFp6, decodeFp12, decodeG1, decodeG2,
      decodePairing, decodeHashToCurve, decodeBls, decodeScalar, decodePointMemory, hn]
    repeat' split
    all_goals simp +contextual [*]

/-! The rows of the opcode map (R112). -/

/-- The field of a row's word under a mask that keeps the whole field. -/
theorem extractLsb'_eq_of_and_eq {w mask pat : Word} {start len : Nat} (h : w &&& mask = pat)
    (hmask : mask.extractLsb' start len = BitVec.allOnes len) :
    w.extractLsb' start len = pat.extractLsb' start len := by
  rw [← h, BitVec.extractLsb'_and, hmask, BitVec.and_allOnes]

theorem fieldOp_eq_of_and_eq {w mask pat : Word} (h : w &&& mask = pat) (hmask : fieldOp mask = 255) :
    fieldOp w = fieldOp pat :=
  congrArg BitVec.toNat (extractLsb'_eq_of_and_eq h (BitVec.eq_of_toNat_eq hmask))

theorem toFin_extractLsb'_eq_of_and_eq {w mask pat : Word} {start : Nat} (h : w &&& mask = pat)
    (hmask : (mask.extractLsb' start 4).toFin = (15 : RegIdx)) :
    (w.extractLsb' start 4).toFin = (pat.extractLsb' start 4).toFin :=
  congrArg BitVec.toFin (extractLsb'_eq_of_and_eq h (congrArg BitVec.ofFin hmask))

/-- What a row asks of a field, or ones where the row leaves it free: zero only if the row asks for zero. -/
def fullField (mask pat : RegIdx) : RegIdx := if mask = 15 then pat else 15

theorem field_eq_zero_of_fullField {w mask pat : Word} {start : Nat} (h : w &&& mask = pat)
    (h0 : fullField (mask.extractLsb' start 4).toFin (pat.extractLsb' start 4).toFin = 0) :
    (w.extractLsb' start 4).toFin = (0 : RegIdx) := by
  unfold fullField at h0
  split at h0
  next hmask => rw [toFin_extractLsb'_eq_of_and_eq h hmask, h0]
  next => cases h0

/-- The word of a row with `n` in its field, and with ones in each other field the row leaves free. -/
def fullWord (row : Word × Word) (n : RegIdx) : Word :=
  encR (fieldOp row.2) (fullField (fieldA row.1) (fieldA row.2)) (fullField (fieldB row.1) (fieldB row.2))
    (fullField (fieldC row.1) (fieldC row.2)) (fullField (fieldD row.1) (fieldD row.2))
    (fullField (fieldE row.1) (fieldE row.2)) n

theorem fitsShape_fullWord {w : Word} {row : Word × Word} (hop : fieldOp w = fieldOp row.2)
    (h : w &&& row.1 = row.2) : FitsShape w (fullWord row (fieldN w)) where
  op := by rw [fullWord, fieldOp_encR, ← hop, Nat.mod_eq_of_lt (fieldOp_lt w)]
  n := by rw [fullWord, fieldN_encR]
  a h0 := field_eq_zero_of_fullField h (by rwa [fullWord, fieldA_encR] at h0)
  b h0 := field_eq_zero_of_fullField h (by rwa [fullWord, fieldB_encR] at h0)
  c h0 := field_eq_zero_of_fullField h (by rwa [fullWord, fieldC_encR] at h0)
  d h0 := field_eq_zero_of_fullField h (by rwa [fullWord, fieldD_encR] at h0)
  e h0 := field_eq_zero_of_fullField h (by rwa [fullWord, fieldE_encR] at h0)

/-- The range of `n` in the words of `Q.GET`, `S.GET` and `T.GET` (R105, R113). -/
abbrev GetInRange (op n : Nat) : Prop := (op = 0x32 → n ≤ 1) ∧ (op = 0x42 → n ≤ 2) ∧ (op = 0x52 → n ≤ 1)

/-- The row's mask keeps the opcode, and its fullest words are accepted, for each `n` the row and its range admit. -/
abbrev FullWordsDecode (row : Word × Word) : Prop :=
  fieldOp row.1 = 255 ∧ ∀ n : RegIdx, (fieldN row.1 = 15 → n = fieldN row.2) →
    GetInRange (fieldOp row.2) n.val → (decode (fullWord row n)).isOk = true

theorem opcodeTable_fullWordsDecode : opcodeTable.all (fun row => FullWordsDecode row) = true := by decide +kernel

theorem exists_eq_ok_of_isOk {r : Except DecodeError Instr} (h : r.isOk = true) : ∃ i, r = .ok i := by
  cases r with
  | ok i => exact ⟨i, rfl⟩
  | error e => cases h

theorem decode_accepts_of_row {w : Word} {row : Word × Word} (hrow : row ∈ opcodeTable) (h : w &&& row.1 = row.2)
    (hrange : GetInRange (fieldOp w) (fieldN w).val) : ∃ i, decode w = .ok i := by
  obtain ⟨hmask, hfull⟩ := of_decide_eq_true (List.all_eq_true.mp opcodeTable_fullWordsDecode row hrow)
  have hop := fieldOp_eq_of_and_eq h hmask
  have hn := toFin_extractLsb'_eq_of_and_eq (start := 0) h
  exact (fitsShape_fullWord hop h).decode_accepts (exists_eq_ok_of_isOk (hfull (fieldN w) hn (hop ▸ hrange)))

theorem getInRange_of_decode {w : Word} {i : Instr} (h : decode w = .ok i) :
    GetInRange (fieldOp w) (fieldN w).val := by
  refine ⟨fun hop => ?_, fun hop => ?_, fun hop => ?_⟩
  · simp only [decode, hop, decodeFp2] at h
    exact (getForm_eq_ok_iff.mp h).2.1
  · simp only [decode, hop, decodeFp6] at h
    exact (getForm_eq_ok_iff.mp h).2.1
  · simp only [decode, hop, decodeFp12] at h
    exact (getForm_eq_ok_iff.mp h).2.1

open Laws.RowMatch in
/-- The word of every instruction belongs to a row. -/
theorem encode_matches_row : ∀ i : Instr, Laws.RowMatch.Statement i :=
  Instr.rec
    halt nop fail jal jalr beq bne bltu li lui addi add sub and or xor lw sw lbu sb fMov fLi fLd fSt fLdr fAdd fSub
    fNeg fMul fSqr fInv fDiv fPow fSqrt fEq qMov qPack qGet qFrob qSgn0 qAdd qSub qNeg qMul qSqr qInv qDiv qPow
    qSqrt qEq qMulnr sMov sPack sGet sMul1 sMul01 sAdd sSub sNeg sMul sSqr sInv sDiv sPow sEq sMulnr tMov tPack tGet
    tFrob tConj tAdd tSub tNeg tMul tSqr tInv tDiv tPow tMul014 tEq g1Mov g1Pack g1Getaff g1Id g1Gen g1Add g1Sub
    g1Neg g1Dbl g1Mul g1Mulu g1Mulmx g1Eq g1Isid g1Oncurve g1Insub g1Valid g1Clrcof g1Phi g2Mov g2Pack g2Getaff g2Id
    g2Gen g2Add g2Sub g2Neg g2Dbl g2Mul g2Mulu g2Mulmx g2Eq g2Isid g2Oncurve g2Insub g2Valid g2Clrcof g2Psi g2Psi2
    tCycsqr tCycexp tFinalexp pairMl pair h2cDst h2cXmd h2cH2f h2cSwu h2cIso h2cMap h2cHash blsPk blsSign blsSignp
    blsVerify blsVerifyb blsAggpk blsAggsig blsVerifyn kMov kLi kLd kLdsk kSt kValid g1Ldc g1Ldu g1Stc g1Stu g2Ldc
    g2Ldu g2Stc g2Stu g1Staffn g2Staffn g1Precomp g2Precomp

theorem decode_accepts_iff (w : Word) :
    (∃ i, decode w = .ok i) ↔
      (∃ row ∈ opcodeTable, w &&& row.1 = row.2) ∧ GetInRange (fieldOp w) (fieldN w).val := by
  constructor
  · rintro ⟨i, h⟩
    obtain ⟨-, hw⟩ := decode_exact w i h
    exact ⟨hw ▸ encode_matches_row i, getInRange_of_decode h⟩
  · rintro ⟨⟨row, hrow, h⟩, hrange⟩
    exact decode_accepts_of_row hrow h hrange

theorem opcodeTable_length : opcodeTable.length = 158 := by decide +kernel

/-- Any two rows differ in a bit both of them fix. -/
theorem opcodeTable_pairwise : opcodeTable.Pairwise fun x y => x.2 &&& y.1 ≠ y.2 &&& x.1 := by decide +kernel

theorem row_unique {w : Word} :
    ∀ x ∈ opcodeTable, ∀ y ∈ opcodeTable, w &&& x.1 = x.2 → w &&& y.1 = y.2 → x = y := by
  intro x hx y hy hwx hwy
  have : Std.Symm fun x y : Word × Word => x.2 &&& y.1 ≠ y.2 &&& x.1 := ⟨fun _ _ => Ne.symm⟩
  by_contra hne
  refine opcodeTable_pairwise.forall hx hy hne ?_
  rw [← hwx, ← hwy, BitVec.and_assoc, BitVec.and_assoc, BitVec.and_comm y.1]

/-- Settles O2. A word the decoder accepts is the word of its instruction, and every instruction's word is in a row; a
word of a row has the shape of one of the row's fullest words, which are evaluated, as is that no two rows meet. -/
theorem decoderAcceptsExactlyTheOpcodeMap : Obligations.DecoderAcceptsExactlyTheOpcodeMap := by
  refine ⟨⟨opcodeTable_length, fun w => ?_, fun w => row_unique⟩, decode_exact⟩
  rw [← fieldOp_eq_toNat_div, ← fieldN_val_eq_toNat_mod]
  exact decode_accepts_iff w

end Sys2Proof
end

section
/-! PROOFS. Immediates as integers, and what an instruction that sets `pc`, reads DMEM or stores big-endian bytes does
(spec/20_memory.md R71 to R74, R85; spec/30_encoding.md R105). -/

namespace Sys2Proof.Machine

open Sys2Proof

/-! Immediates (R105), and sums and differences modulo 2^32. -/

theorem immU_eq_ofNat (imm : BitVec 16) : immU imm = BitVec.ofNat 32 imm.toNat :=
  (BitVec.ofNat_toNat 32 imm).symm

theorem immHigh_eq_ofNat (imm : BitVec 16) : immHigh imm = BitVec.ofNat 32 (imm.toNat * 2 ^ 16) := by
  apply BitVec.eq_of_toNat_eq
  simp [immHigh, immU, Nat.shiftLeft_eq]

@[simp] theorem immScalar_toNat (imm : BitVec 16) : (immScalar imm).toNat = imm.toNat :=
  BitVec.toNat_setWidth_of_le (by decide)

theorem word_add_eq_ofNat (x y : Word) : x + y = BitVec.ofNat 32 (x.toNat + y.toNat) := by
  simp [BitVec.ofNat_add]

theorem word_sub_eq_ofInt (x y : Word) : x - y = BitVec.ofInt 32 (x.toNat - y.toNat : Int) := by
  rw [Int.sub_eq_add_neg, BitVec.ofInt_add, BitVec.ofInt_neg, BitVec.sub_eq_add_neg]
  simp

theorem word_add_immS (x : Word) (imm : BitVec 16) : x + immS imm = BitVec.ofInt 32 (x.toNat + imm.toInt) := by
  simp [immS, BitVec.signExtend, BitVec.ofInt_add]

theorem relTarget_eq_ofInt (s : State) (imm : BitVec 16) :
    relTarget s imm = BitVec.ofInt 32 (s.pc.toNat + imm.toInt) :=
  word_add_immS s.pc imm

theorem effAddr_eq_ofInt (s : State) (b : RegIdx) (imm : BitVec 16) :
    effAddr s b imm = BitVec.ofInt 32 ((readR s b).toNat + imm.toInt) :=
  word_add_immS (readR s b) imm

/-! Instructions that set `pc` themselves, and one write to `r[a]` whose value is known in another form. -/

section
variable {i : Instr} {s u : State} {n : Word} {a : RegIdx} {v v' : Word}

theorem runsTo_of_setPc {w : Writes} {post : State → Prop} (h : exec i s = .next (setPc u n))
    (tag : u.dstBuf = s.dstBuf) (frame : Frame w s u) (hp : post (setPc u n)) : RunsTo i s n w post :=
  ⟨_, h, rfl, tag, frame.setPc n, hp⟩

/-- A jump that leaves a link in `r[a]`. -/
theorem runsTo_link (h : exec i s = .next (setPc (writeR s a v) n)) :
    RunsTo i s n { r := [a] } (fun u => readR u a = asWritten a v) :=
  runsTo_of_setPc h (writeR_dstBuf s a v) (frame_writeR s a v) (by simp)

/-- A jump that leaves nothing. -/
theorem runsTo_branch (h : exec i s = .next (setPc s n)) : RunsTo i s n {} (fun _ => True) :=
  runsTo_of_setPc h rfl (frame_refl {} s) trivial

theorem runs_writeR_eq (h : exec i s = retire s (.ok (writeR s a v))) (hv : v = v') :
    Runs i s { r := [a] } (fun u => readR u a = asWritten a v') :=
  runs_writeR h fun _ hu => hv ▸ hu

end

/-! Accesses to DMEM (R72, R74). -/

theorem fits_of_le {addr : Word} {n : Nat} (h : addr.toNat + n ≤ Config.dmemBytes) : Fits addr n := .inr h

theorem not_fits_of_lt {addr : Word} {n : Nat} (hn : n ≠ 0) (h : Config.dmemBytes < addr.toNat + n) :
    ¬Fits addr n := by
  rintro (h0 | hle)
  · exact hn h0
  · exact absurd hle (Nat.not_le.mpr h)

section
variable {i : Instr} {s : State} {addr : Word} {n v : Nat}

/-- An instruction that begins with a read, where the read fits: it goes on with the bytes. -/
theorem exec_of_load {k : List Byte → Res State} (h : exec i s = retire s (memRead s addr n >>= k))
    (hf : Fits addr n) : exec i s = retire s (k (bytesAt s addr n)) := by
  rw [h, fits_iff addr n hf s, res_ok_bind]

theorem traps_load {k : List Byte → Res State} (h : exec i s = retire s (memRead s addr n >>= k))
    (hf : ¬Fits addr n) : Traps i s .dmemRange addr := by
  rw [not_fits addr n hf s, res_error_bind] at h
  exact traps_of_retire h

theorem runs_store_i2osp {post : State → Prop} (h : exec i s = retire s (memWrite s addr (i2osp v n)))
    (hf : Fits addr n) (hm : Memory.wf s.dmem) (hp : ∀ u, bytesAt u addr n = i2osp v n → post u) :
    Runs i s { memAt := addr.toNat, memLen := n } post := by
  have hrun := runs_store (post := post) h
  rw [i2osp_length] at hrun
  exact hrun hf hm hp

theorem traps_store_i2osp (h : exec i s = retire s (memWrite s addr (i2osp v n))) (hf : ¬Fits addr n) :
    Traps i s .dmemRange addr :=
  traps_store h (by rwa [i2osp_length])

end

theorem i2osp_byte (b : Byte) : i2osp b.toNat 1 = [b] := by simp [i2osp]

/-- The big-endian word at an address (R71). -/
theorem intAt_four (s : State) (addr : Word) :
    intAt s addr 4 = (cellsRead s.dmem addr.toNat).toNat * 2 ^ 24 +
      (cellsRead s.dmem (addr.toNat + 1)).toNat * 2 ^ 16 + (cellsRead s.dmem (addr.toNat + 2)).toNat * 2 ^ 8 +
      (cellsRead s.dmem (addr.toNat + 3)).toNat := by
  simp [intAt, bytesAt, readBytes, os2ip_cons, os2ip_nil, Nat.add_assoc]

end Sys2Proof.Machine
end

section
/-! PROOFS. The control, integer and scalar-register instructions (spec/40_control_integer_scalar.md R134 to R159): each
statement puts together the words of its instructions and, per instruction, the rule for the way its meaning ends. -/

namespace Sys2Proof.Machine

open Sys2Proof

/-! Control (R134 to R141). -/

/-- Settles O15, by evaluating each meaning; the information word of `FAIL` is its immediate as an integer. -/
theorem haltFailAndHints : Obligations.HaltFailAndHints := by
  refine ⟨fun a n imm => ⟨rfl, rfl, rfl, rfl, rfl⟩, fun s => rfl, fun s imm => ?_, fun s a n => ⟨rfl, rfl, rfl⟩⟩
  rw [← immU_eq_ofNat]
  exact traps_of_retire rfl

/-- Settles O16: both meanings write the link into the state whose `pc` and registers give the target. -/
theorem jumpsLinkAndGo : Obligations.JumpsLinkAndGo := by
  refine ⟨fun a b imm => ⟨rfl, rfl⟩, fun s a b imm => ⟨?_, runsTo_link rfl⟩⟩
  rw [← relTarget_eq_ofInt]
  exact runsTo_link rfl

/-- Settles O17: each meaning sets `pc` and nothing else. `BNE` names the two targets in the other order than its
meaning. -/
theorem branchesChooseTheirTarget : Obligations.BranchesChooseTheirTarget := by
  refine ⟨fun a b imm => ⟨rfl, rfl, rfl⟩, fun s a b imm => ?_⟩
  rw [← relTarget_eq_ofInt]
  refine ⟨runsTo_branch rfl, ?_, runsTo_branch rfl⟩
  rw [← ite_not]
  exact runsTo_branch rfl

/-! Integer registers (R142 to R149). -/

/-- Settles O18: each is one write to `r[a]`, of a value that the arithmetic of immediates, sums and differences puts as
an integer. -/
theorem integerArithmetic : Obligations.IntegerArithmetic :=
  ⟨fun _ _ _ _ => ⟨rfl, rfl, rfl, rfl, rfl, rfl, rfl, rfl⟩,
    fun s _ b imm =>
      ⟨runs_writeR_eq rfl (immU_eq_ofNat imm), runs_writeR_eq rfl (immHigh_eq_ofNat imm),
        runs_writeR_eq rfl (word_add_immS (readR s b) imm)⟩,
    fun s _ b c =>
      ⟨runs_writeR_eq rfl (word_add_eq_ofNat (readR s b) (readR s c)),
        runs_writeR_eq rfl (word_sub_eq_ofInt (readR s b) (readR s c)),
        runs_writeR_eq rfl rfl, runs_writeR_eq rfl rfl, runs_writeR_eq rfl rfl⟩⟩

/-! Loads and stores of words and bytes (R150 to R153). -/

section
variable (s : State) (a b : RegIdx) (imm : BitVec 16)

theorem lw_runs (hf : Fits (effAddr s b imm) 4) :
    Runs (.lw a b imm) s { r := [a] }
      (fun u => readR u a = asWritten a (BitVec.ofNat 32 (intAt s (effAddr s b imm) 4))) :=
  runs_writeR_eq (exec_of_load (i := .lw a b imm) rfl hf :) rfl

theorem lbu_runs (hf : Fits (effAddr s b imm) 1) :
    Runs (.lbu a b imm) s { r := [a] }
      (fun u => readR u a = asWritten a (BitVec.ofNat 32 (cellsRead s.dmem (effAddr s b imm).toNat).toNat)) :=
  runs_writeR_eq (exec_of_load (i := .lbu a b imm) rfl hf :) (BitVec.ofNat_toNat 32 _).symm

theorem sw_runs (hf : Fits (effAddr s b imm) 4) (hm : Memory.wf s.dmem) :
    Runs (.sw a b imm) s { memAt := (effAddr s b imm).toNat, memLen := 4 } (fun u =>
      cellsRead u.dmem (effAddr s b imm).toNat = (readR s a).extractLsb' 24 8 ∧
      cellsRead u.dmem ((effAddr s b imm).toNat + 1) = (readR s a).extractLsb' 16 8 ∧
      cellsRead u.dmem ((effAddr s b imm).toNat + 2) = (readR s a).extractLsb' 8 8 ∧
      cellsRead u.dmem ((effAddr s b imm).toNat + 3) = (readR s a).extractLsb' 0 8) :=
  runs_store_i2osp rfl hf hm fun u hu => by simpa [bytesAt, readBytes, i2osp_word] using hu

theorem sb_runs (hf : Fits (effAddr s b imm) 1) (hm : Memory.wf s.dmem) :
    Runs (.sb a b imm) s { memAt := (effAddr s b imm).toNat, memLen := 1 } (fun u =>
      cellsRead u.dmem (effAddr s b imm).toNat = (readR s a).extractLsb' 0 8) :=
  runs_store_i2osp rfl hf hm fun _ hu => List.singleton_inj.mp (hu.trans (i2osp_byte _))

end

/-- Settles O19, by the range check of the read. -/
theorem integerLoads : Obligations.IntegerLoads := by
  refine ⟨fun a b imm => ⟨rfl, rfl⟩, fun s a b imm => ⟨effAddr_eq_ofInt s b imm, fun hin => ?_, fun hout => ?_,
    fun hin => lbu_runs s a b imm (fits_of_le hin), fun hout => ?_⟩⟩
  · have hrun := lw_runs s a b imm (fits_of_le hin)
    rw [intAt_four] at hrun
    exact hrun
  · exact traps_load rfl (not_fits_of_lt (by decide) hout)
  · exact traps_load rfl (not_fits_of_lt (by decide) (Nat.lt_succ_of_le hout))

/-- Settles O20, by the range check of the store. -/
theorem integerStores : Obligations.IntegerStores := by
  refine ⟨fun a b imm => ⟨rfl, rfl⟩, fun s a b imm hm => ⟨fun hin => sw_runs s a b imm (fits_of_le hin) hm,
    fun hout => ?_, fun hin => sb_runs s a b imm (fits_of_le hin) hm, fun hout => ?_⟩⟩
  · exact traps_store_i2osp rfl (not_fits_of_lt (by decide) hout)
  · exact traps_store_i2osp rfl (not_fits_of_lt (by decide) (Nat.lt_succ_of_le hout))

/-! Scalar registers (R154 to R159). -/

/-- The range of a secret key (R157, R159). -/
theorem keyInRange_iff (n : Nat) : keyInRange n = true ↔ 0 < n ∧ n ≤ orderR := by simp [keyInRange]

theorem keyInRange_eq_false_iff (n : Nat) : keyInRange n = false ↔ n = 0 ∨ orderR < n := by
  rw [← Bool.not_eq_true, keyInRange_iff]
  omega

theorem orderR_lt : orderR < 2 ^ 256 := by decide

theorem kSt_runs (s : State) (a b : RegIdx) (imm : BitVec 16) (hf : Fits (effAddr s b imm) 32)
    (hm : Memory.wf s.dmem) :
    Runs (.kSt a b imm) s { memAt := (effAddr s b imm).toNat, memLen := 32 }
      (fun u => intAt u (effAddr s b imm) 32 = (readK s a).toNat) := by
  refine runs_store_i2osp rfl hf hm fun u hu => ?_
  have hlt : (readK s a).toNat < 256 ^ 32 := (readK s a).isLt
  rw [intAt, hu, os2ip_i2osp, Nat.mod_eq_of_lt hlt]

/-- Settles O21: one write each, and a store whose 32 bytes hold every scalar. -/
theorem scalarMovesStoreAndRangeTest : Obligations.ScalarMovesStoreAndRangeTest := by
  refine ⟨fun a b imm => ⟨rfl, rfl, rfl, rfl⟩, fun s a b imm => ⟨?_, ?_, ?_⟩, fun s a b imm hm =>
    ⟨fun hin => kSt_runs s a b imm (fits_of_le hin) hm, fun hout => ?_⟩⟩
  · exact runs_writeK rfl fun _ hu => hu
  · exact runs_writeK rfl fun _ hu => by rw [hu, immScalar_toNat]
  · exact runs_writeR rfl fun _ hu => answers_boolWord (keyInRange_iff _) hu
  · exact traps_store_i2osp rfl (not_fits_of_lt (by decide) hout)

/-- A value below 2^256 written to `k[a]` (R40). -/
theorem runs_writeK_ofNat {i : Instr} {s : State} {a : RegIdx} {v : Nat}
    (h : exec i s = retire s (.ok (writeK s a (BitVec.ofNat 256 v)))) (hv : v < 2 ^ 256) :
    Runs i s { k := [a] } (fun u => (readK u a).toNat = v) :=
  runs_writeK h fun _ hu => by rw [hu, BitVec.toNat_ofNat, Nat.mod_eq_of_lt hv]

section
variable (s : State) (a b c : RegIdx)

theorem kLd_exec (hf : Fits (readR s b) (readR s c).toNat) :
    exec (.kLd a b c) s = retire s
      (if 2 ^ 256 ≤ intAt s (readR s b) (readR s c).toNat then .error (fails .scalarOutOfRange)
       else .ok (writeK s a (BitVec.ofNat 256 (intAt s (readR s b) (readR s c).toNat)))) :=
  (exec_of_load (i := .kLd a b c) rfl hf :)

theorem kLdsk_exec (hf : Fits (readR s b) (readR s c).toNat) :
    exec (.kLdsk a b c) s = retire s
      (if keyInRange (intAt s (readR s b) (readR s c).toNat) = false then .error (fails .scalarOutOfRange)
       else .ok (writeK s a (BitVec.ofNat 256 (intAt s (readR s b) (readR s c).toNat)))) :=
  (exec_of_load (i := .kLdsk a b c) rfl hf :)

end

/-- Settles O22: the read comes first, and then the range of the instruction decides. -/
theorem scalarLoads : Obligations.ScalarLoads := by
  refine ⟨fun a b c => ⟨rfl, rfl⟩, fun s a b c => ⟨fun hf => ?_, fun hf => ⟨traps_load rfl hf, traps_load rfl hf⟩⟩⟩
  have hld := kLd_exec s a b c hf
  have hldsk := kLdsk_exec s a b c hf
  simp only [keyInRange_eq_false_iff] at hldsk
  refine ⟨fun hin => ?_, fun hout => ?_, fun ⟨hpos, hle⟩ => ?_, fun hout => ?_⟩
  · rw [if_neg (by omega)] at hld
    exact runs_writeK_ofNat hld hin
  · rw [if_pos hout] at hld
    exact traps_of_retire hld
  · rw [if_neg (by omega)] at hldsk
    exact runs_writeK_ofNat hldsk (hle.trans_lt orderR_lt)
  · rw [if_pos hout] at hldsk
    exact traps_of_retire hldsk

end Sys2Proof.Machine
end

section
/-! PROOFS. Fp as the field of the integers modulo `p` (spec/41_fp.md R181 to R183): what the functions of
Machine/FpArith.lean are as residues, the inverse by Fermat's little theorem and the square root of a prime that is 3
modulo 4; and the powers of the four levels as repeated multiplication (spec/00_scope.md R9). -/

namespace Sys2Proof.Machine

open Sys2Proof

/-! Residues. -/

/-- The canonical residue of a natural number. -/
theorem val_eq_mod_of_toZ {a : Fp} {n : Nat} (h : toZ a = n) : a.val = n % fieldP :=
  congrArg Fin.val (toZ_inj (h.trans (toZ_toFp n).symm))

/-- The canonical residue of an integer. -/
theorem val_eq_emod_of_toZ {a : Fp} {z : Int} (h : toZ a = z) : (a.val : Int) = z % fieldP := by
  have hcong : (a.val : Int) % fieldP = z % fieldP := by
    rw [← ZMod.intCast_eq_intCast_iff', Int.cast_natCast]
    exact h
  rwa [Int.emod_eq_of_lt (Int.natCast_nonneg _) (Int.ofNat_lt.mpr a.isLt)] at hcong

theorem toFp_val_of_lt {n : Nat} (h : n < fieldP) : (toFp n).val = n := Nat.mod_eq_of_lt h

theorem intCast_val (a : Fp) : ((a.val : Int) : ZMod fieldP) = toZ a := Int.cast_natCast _

/-- A product of Fp, stated over the integers. -/
theorem mul_mod_eq_val_iff (a b c : Fp) : a.val * b.val % fieldP = c.val ↔ toZ a * toZ b = toZ c := by
  rw [← toZ_fmul]
  exact ⟨fun h => congrArg toZ (Fin.ext h), fun h => congrArg Fin.val (toZ_inj h)⟩

/-! Sums, differences, opposites, products and powers as integers modulo `p` (R181, R183). -/

theorem val_fadd (a b : Fp) : ((fadd a b).val : Int) = (a.val + b.val : Int) % fieldP :=
  val_eq_emod_of_toZ (by rw [toZ_fadd, Int.cast_add, intCast_val, intCast_val])

theorem val_fsub (a b : Fp) : ((fsub a b).val : Int) = (a.val - b.val : Int) % fieldP :=
  val_eq_emod_of_toZ (by rw [toZ_fsub, Int.cast_sub, intCast_val, intCast_val])

theorem val_fneg (a : Fp) : ((fneg a).val : Int) = (-a.val : Int) % fieldP :=
  val_eq_emod_of_toZ (by rw [toZ_fneg, Int.cast_neg, intCast_val])

theorem val_fmul (a b : Fp) : ((fmul a b).val : Int) = (a.val * b.val : Int) % fieldP :=
  val_eq_emod_of_toZ (by rw [toZ_fmul, Int.cast_mul, intCast_val, intCast_val])

theorem val_fsqr (a : Fp) : ((fsqr a).val : Int) = (a.val * a.val : Int) % fieldP := val_fmul a a

theorem val_fpow (a : Fp) (n : Nat) : (fpow a n).val = a.val ^ n % fieldP :=
  val_eq_mod_of_toZ (by rw [toZ_fpow, toZ, Nat.cast_pow])

/-! The inverse and the quotient (R182). -/

/-- Fermat's little theorem: the power `p - 2` inverts. -/
theorem toZ_finvTotal_mul {a : Fp} (ha : a.val ≠ 0) : toZ (finvTotal a) * toZ a = 1 := by
  have : Fact (Nat.Prime fieldP) := ⟨fieldP_prime⟩
  have hexp : fieldP - 2 + 1 = fieldP - 1 := by decide
  rw [finvTotal, toZ_fpow, ← pow_succ, hexp]
  exact ZMod.pow_card_sub_one_eq_one (mt toZ_eq_zero.mp ha)

theorem finv_of_ne_zero {a : Fp} (ha : a.val ≠ 0) : finv a = .ok (finvTotal a) := if_neg ha

theorem finv_of_eq_zero {a : Fp} (ha : a.val = 0) : finv a = .error (fails .noInverse) := if_pos ha

theorem fdiv_of_ne_zero (a : Fp) {b : Fp} (hb : b.val ≠ 0) : fdiv a b = .ok (fmul a (finvTotal b)) := by
  rw [fdiv, finv_of_ne_zero hb, res_ok_bind]

theorem fdiv_of_eq_zero (a : Fp) {b : Fp} (hb : b.val = 0) : fdiv a b = .error (fails .noInverse) := by
  rw [fdiv, finv_of_eq_zero hb, res_error_bind]

theorem finvTotal_mul_mod {a : Fp} (ha : a.val ≠ 0) : (finvTotal a).val * a.val % fieldP = 1 :=
  (mul_mod_eq_val_iff _ a (toFp 1)).mpr (by rw [toZ_finvTotal_mul ha, toZ_toFp, Nat.cast_one])

theorem quotient_mul_mod (a : Fp) {b : Fp} (hb : b.val ≠ 0) :
    (fmul a (finvTotal b)).val * b.val % fieldP = a.val :=
  (mul_mod_eq_val_iff _ b a).mpr (by rw [toZ_fmul, mul_assoc, toZ_finvTotal_mul hb, mul_one])

/-! The square root (R183). -/

/-- The candidate of `fsqrt`. -/
def sqrtCand (a : Fp) : Fp := fpow a ((fieldP + 1) / 4)

theorem fsqrt_eq (a : Fp) :
    fsqrt a = if fmul (sqrtCand a) (sqrtCand a) = a then some (sqrtCand a) else none := rfl

/-- The candidate of a square `y * y` squares to it, since `y ^ (p + 1) = y * y`. -/
theorem sqrtCand_mul_self {a y : Fp} (hy : toZ y * toZ y = toZ a) :
    toZ (sqrtCand a) * toZ (sqrtCand a) = toZ a := by
  have : Fact (Nat.Prime fieldP) := ⟨fieldP_prime⟩
  have hexp : 2 * ((fieldP + 1) / 4 * 2) = fieldP + 1 := by decide
  calc toZ (sqrtCand a) * toZ (sqrtCand a)
      = toZ y ^ (2 * ((fieldP + 1) / 4 * 2)) := by
        rw [sqrtCand, toZ_fpow, ← hy, ← pow_two, ← pow_two, ← pow_mul, ← pow_mul]
    _ = toZ y * toZ y := by rw [hexp, pow_succ, ZMod.pow_card]
    _ = toZ a := hy

/-- The candidate of a square is itself a square, of the candidate of the root. -/
theorem sqrtCand_of_square {a y : Fp} (hy : toZ y * toZ y = toZ a) :
    toZ (sqrtCand y) * toZ (sqrtCand y) = toZ (sqrtCand a) := by
  simp only [sqrtCand, toZ_fpow]
  rw [← mul_pow, hy]

theorem fsqrt_of_square {a y : Fp} (hy : toZ y * toZ y = toZ a) : fsqrt a = some (sqrtCand a) := by
  rw [fsqrt_eq, if_pos]
  exact toZ_inj (by rw [toZ_fmul, sqrtCand_mul_self hy])

theorem fsqrt_of_no_root {a : Fp} (h : ¬∃ y : Fp, y.val * y.val % fieldP = a.val) : fsqrt a = none := by
  rw [fsqrt_eq, if_neg]
  exact fun hroot => h ⟨sqrtCand a, (mul_mod_eq_val_iff _ _ _).mpr (by rw [← toZ_fmul, hroot])⟩

/-! Powers of the four levels (spec/00_scope.md R9). -/

theorem powBy_eq_repMul_of_monoid {M : Type} [Monoid M] (a : M) (n : Nat) :
    powBy (· * ·) 1 a n = repMul (· * ·) 1 a n :=
  powBy_eq_repMul _ _ mul_assoc one_mul mul_one a n

theorem qPow_eq_repMul (a : Fp2) (n : Nat) : qPow a n = repMul qMul one2 a n :=
  let := ringFp2
  powBy_eq_repMul_of_monoid a n

theorem sPow_eq_repMul (a : Fp6) (n : Nat) : sPow a n = repMul sMul one6 a n :=
  let := ringFp6
  powBy_eq_repMul_of_monoid a n

theorem tPow_eq_repMul (a : Fp12) (n : Nat) : tPow a n = repMul tMul one12 a n :=
  let := ringFp12
  powBy_eq_repMul_of_monoid a n

/-! One more write, and a store of an integer that its bytes hold. -/

/-- A write to `r[c]` after what a frame already allows. -/
theorem Frame.writeR {w : Writes} {s u : State} (h : Frame w s u) (c : RegIdx) (v : Word) :
    Frame { w with r := c :: w.r } s (writeR u c v) where
  r j hj := by
    obtain ⟨hjc, hjw⟩ := not_or.mp (mt List.mem_cons.mpr hj)
    rw [readR_writeR_other u c j v hjc, h.r j hjw]
  f j hj := (readF_writeR u c j v).trans (h.f j hj)
  q j hj := (readQ_writeR u c j v).trans (h.q j hj)
  s j hj := (readS_writeR u c j v).trans (h.s j hj)
  t j hj := (readT_writeR u c j v).trans (h.t j hj)
  g j hj := (readG_writeR u c j v).trans (h.g j hj)
  h j hj := (readH_writeR u c j v).trans (h.h j hj)
  k j hj := (readK_writeR u c j v).trans (h.k j hj)
  dmem x hx := by rw [writeR_dmem, h.dmem x hx]
  control :=
    { imem := (writeR_imem u c v).trans h.control.imem
      startPc := (writeR_startPc u c v).trans h.control.startPc
      intrEnable := (writeR_intrEnable u c v).trans h.control.intrEnable
      intrState := (writeR_intrState u c v).trans h.control.intrState
      status := (writeR_status u c v).trans h.control.status
      ecause := (writeR_ecause u c v).trans h.control.ecause
      epc := (writeR_epc u c v).trans h.control.epc
      einfo := (writeR_einfo u c v).trans h.control.einfo }

theorem runs_store_intAt {i : Instr} {s : State} {addr : Word} {n v : Nat}
    (h : exec i s = retire s (memWrite s addr (i2osp v n))) (hf : Fits addr n) (hm : Memory.wf s.dmem)
    (hv : v < 256 ^ n) :
    Runs i s { memAt := addr.toNat, memLen := n } (fun u => intAt u addr n = v) :=
  runs_store_i2osp h hf hm fun u hu => by rw [intAt, hu, os2ip_i2osp, Nat.mod_eq_of_lt hv]

end Sys2Proof.Machine
end

section
/-! PROOFS. The Fp instructions (spec/41_fp.md R185 to R199) and the powers of the upper levels (spec/42_fp2.md R227,
spec/43_fp6.md R257, spec/44_fp12.md R289): each meaning writes one register, stores, or raises, and the value is what
the functions of the field are as residues. -/

namespace Sys2Proof.Machine

open Sys2Proof

/-! Moves and arithmetic (R185, R186, R190 to R194, R199). -/

/-- Settles O23: each is one write, and a sum, difference, opposite or product of residues is that of the integers. -/
theorem fieldArithmetic : Obligations.FieldArithmetic := by
  refine ⟨fun a b c imm => ⟨rfl, rfl, rfl, rfl, rfl, rfl, rfl, rfl⟩, fun s a b c imm => ⟨?_, ?_, ?_⟩,
    fun s a b c => ⟨?_, ?_, ?_, ?_, ?_⟩⟩
  · exact runs_writeF rfl fun _ hu => hu
  · have himm : imm.toNat < fieldP := imm.isLt.trans (by decide)
    exact runs_writeF rfl fun _ hu => by rw [hu, toFp_val_of_lt himm]
  · exact runs_writeR rfl fun _ hu => answers_boolWord (decide_eq_true_iff.trans Fin.ext_iff) hu
  · exact runs_writeF rfl fun _ hu => by rw [hu, val_fadd]
  · exact runs_writeF rfl fun _ hu => by rw [hu, val_fsub]
  · exact runs_writeF rfl fun _ hu => by rw [hu, val_fneg]
  · exact runs_writeF rfl fun _ hu => by rw [hu, val_fmul]
  · exact runs_writeF rfl fun _ hu => by rw [hu, val_fsqr]

/-! Loads and the store (R187 to R189). -/

theorem fieldP_lt_pow : fieldP < 256 ^ 48 := by decide

theorem canonical_of_lt {v : Nat} (h : v < fieldP) : canonical v = .ok (toFp v) := if_neg (Nat.not_le.mpr h)

theorem canonical_of_le {v : Nat} (h : fieldP ≤ v) : canonical v = .error (fails .nonCanonicalField) := if_pos h

section
variable (s : State) (a b c : RegIdx) (imm : BitVec 16)

theorem fLd_exec (hf : Fits (effAddr s b imm) 48) :
    exec (.fLd a b imm) s = retire s (canonical (intAt s (effAddr s b imm) 48) >>= fun v => .ok (writeF s a v)) :=
  (exec_of_load (i := .fLd a b imm) rfl hf :)

theorem fLdr_exec (hf : Fits (readR s b) (readR s c).toNat) :
    exec (.fLdr a b c) s = retire s (.ok (writeF s a (toFp (intAt s (readR s b) (readR s c).toNat)))) :=
  (exec_of_load (i := .fLdr a b c) rfl hf :)

theorem fLd_runs (hf : Fits (effAddr s b imm) 48) (hv : intAt s (effAddr s b imm) 48 < fieldP) :
    Runs (.fLd a b imm) s { f := [a] } (fun u => (readF u a).val = intAt s (effAddr s b imm) 48) := by
  have hexec := fLd_exec s a b imm hf
  rw [canonical_of_lt hv, res_ok_bind] at hexec
  exact runs_writeF hexec fun _ hu => by rw [hu, toFp_val_of_lt hv]

theorem fLd_traps (hf : Fits (effAddr s b imm) 48) (hv : fieldP ≤ intAt s (effAddr s b imm) 48) :
    Traps (.fLd a b imm) s .nonCanonicalField 0 := by
  have hexec := fLd_exec s a b imm hf
  rw [canonical_of_le hv, res_error_bind] at hexec
  exact traps_of_retire hexec

end

/-- Settles O24: the access comes first, and then the range of a canonical residue decides. -/
theorem fieldLoadsAndStore : Obligations.FieldLoadsAndStore := by
  refine ⟨fun a b c imm => ⟨rfl, rfl, rfl⟩, fun s a b c imm => ⟨fun hin => ?_, fun hout => ?_, fun hf => ?_,
    fun hf => traps_load rfl hf⟩⟩
  · have hf := fits_of_le hin
    exact ⟨fLd_runs s a b imm hf, fLd_traps s a b imm hf,
      fun hm => runs_store_intAt rfl hf hm ((readF s a).isLt.trans fieldP_lt_pow)⟩
  · have hf := not_fits_of_lt (by decide) hout
    exact ⟨traps_load rfl hf, traps_store_i2osp rfl hf⟩
  · exact runs_writeF (fLdr_exec s a b c hf) fun _ hu => by rw [hu, toFp]

/-! Inverse and quotient (R195, R196). -/

section
variable (s : State) (a b c : RegIdx)

theorem fInv_exec : exec (.fInv a b) s = retire s (finv (readF s b) >>= fun v => .ok (writeF s a v)) := rfl

theorem fDiv_exec :
    exec (.fDiv a b c) s = retire s (fdiv (readF s b) (readF s c) >>= fun v => .ok (writeF s a v)) := rfl

end

/-- Settles O25, by Fermat's little theorem. -/
theorem fieldInverseAndQuotient : Obligations.FieldInverseAndQuotient := by
  refine ⟨fun a b c => ⟨rfl, rfl⟩, fun s a b c => ?_⟩
  have hinv := fInv_exec s a b
  have hdiv := fDiv_exec s a b c
  refine ⟨fun hb => ?_, fun hb => ?_, fun hc => ?_, fun hc => ?_⟩
  · rw [finv_of_ne_zero hb, res_ok_bind] at hinv
    exact runs_writeF hinv fun _ hu => by rw [hu, finvTotal_mul_mod hb]
  · rw [finv_of_eq_zero hb, res_error_bind] at hinv
    exact traps_of_retire hinv
  · rw [fdiv_of_ne_zero _ hc, res_ok_bind] at hdiv
    exact runs_writeF hdiv fun _ hu => by rw [hu, quotient_mul_mod _ hc]
  · rw [fdiv_of_eq_zero _ hc, res_error_bind] at hdiv
    exact traps_of_retire hdiv

/-! Square root (R198). -/

section
variable {s : State} {b : RegIdx} (a c : RegIdx)

theorem fSqrt_exec_some {v : Fp} (h : fsqrt (readF s b) = some v) :
    exec (.fSqrt a b c) s = retire s (.ok (writeR (writeF s a v) c 1)) := by
  change execFSqrt a b c s = _
  unfold execFSqrt
  rw [h]

theorem fSqrt_exec_none (h : fsqrt (readF s b) = none) :
    exec (.fSqrt a b c) s = retire s (.ok (writeR s c 0)) := by
  change execFSqrt a b c s = _
  unfold execFSqrt
  rw [h]

/-- A root found: the root in `f[a]`, the flag 1 in `r[c]`. -/
theorem fSqrt_runs_some {v : Fp} (h : fsqrt (readF s b) = some v) {post : State → Prop}
    (hp : ∀ u, readR u c = asWritten c 1 → readF u a = v → post u) :
    Runs (.fSqrt a b c) s { f := [a], r := [c] } post :=
  runs_of_retire (fSqrt_exec_some a c h) (writeR_dstBuf _ c 1) ((frame_writeF s a v).writeR c 1)
    (hp _ (by simp) (by simp))

end

/-- Settles O26: the candidate is a root exactly for the squares, and then the square of the root's own candidate. -/
theorem fieldSquareRoot : Obligations.FieldSquareRoot := by
  refine ⟨fun a b c => rfl, fun s a b c => ⟨fun ⟨y, hy⟩ => ?_, fun hno => ?_⟩⟩
  · rw [mul_mod_eq_val_iff] at hy
    refine fSqrt_runs_some a c (fsqrt_of_square hy) fun u hflag hroot => ?_
    rw [hroot]
    exact ⟨hflag, (mul_mod_eq_val_iff _ _ _).mpr (sqrtCand_mul_self hy), val_fpow _ _, sqrtCand y,
      (mul_mod_eq_val_iff _ _ _).mpr (sqrtCand_of_square hy)⟩
  · exact runs_writeR (fSqrt_exec_none a c (fsqrt_of_no_root hno)) fun _ hu => hu

/-! Powers (R197, R227, R257, R289). -/

/-- Settles O27: square and multiply is repeated multiplication in each ring of the tower. -/
theorem powersAreRepeatedProducts : Obligations.PowersAreRepeatedProducts := by
  refine ⟨fun a b c => ⟨rfl, rfl, rfl, rfl⟩, fun s a b c => ⟨?_, ?_, ?_, ?_⟩⟩
  · exact runs_writeF rfl fun _ hu => by rw [hu, val_fpow]
  · exact runs_writeQ rfl fun _ hu => by rw [hu, qPow_eq_repMul]
  · exact runs_writeS rfl fun _ hu => by rw [hu, sPow_eq_repMul]
  · exact runs_writeT rfl fun _ hu => by rw [hu, tPow_eq_repMul]

end Sys2Proof.Machine
end

section
/-! PROOFS. Fp2 as a field (spec/42_fp2.md R211 to R214): the inverse by the norm, and the square root by the eighth
roots of unity. -/

namespace Sys2Proof.Machine

open Sys2Proof

/-! The inverse and the quotient (R212). -/

/-- A sum of two squares modulo `p` is zero only for zeros, as `p` is 3 modulo 4. -/
theorem sum_sq_eq_zero {x y : ZMod fieldP} (h : x * x + y * y = 0) : x = 0 ∧ y = 0 := by
  have : Fact (Nat.Prime fieldP) := ⟨fieldP_prime⟩
  have hns : ¬IsSquare (-1 : ZMod fieldP) := by
    rw [ZMod.exists_sq_eq_neg_one_iff]
    decide
  have hy : y = 0 := by
    by_contra hy
    refine hns ⟨x / y, ?_⟩
    field_simp
    linear_combination -h
  rw [hy, mul_zero, add_zero] at h
  exact ⟨mul_self_eq_zero.mp h, hy⟩

/-- The norm `c0² + c1²` of an element of Fp2. -/
def norm2 (a : Fp2) : Fp := fadd (fmul a.c0 a.c0) (fmul a.c1 a.c1)

@[simp] theorem toZ_norm2 (a : Fp2) : toZ (norm2 a) = toZ a.c0 * toZ a.c0 + toZ a.c1 * toZ a.c1 := by simp [norm2]

theorem norm2_ne_zero {a : Fp2} (ha : a ≠ zero2) : (norm2 a).val ≠ 0 := by
  intro h
  rw [← toZ_eq_zero, toZ_norm2] at h
  obtain ⟨h0, h1⟩ := sum_sq_eq_zero h
  exact ha (fp2_toZ_ext (by simp [h0]) (by simp [h1]))

theorem qInvTotal_c0 (a : Fp2) : (qInvTotal a).c0 = fmul a.c0 (finvTotal (norm2 a)) := rfl
theorem qInvTotal_c1 (a : Fp2) : (qInvTotal a).c1 = fneg (fmul a.c1 (finvTotal (norm2 a))) := rfl

/-- The conjugate over the norm inverts. -/
theorem qMul_qInvTotal {a : Fp2} (ha : a ≠ zero2) : qMul a (qInvTotal a) = one2 := by
  have hinv := toZ_finvTotal_mul (norm2_ne_zero ha)
  rw [toZ_norm2] at hinv
  refine fp2_toZ_ext ?_ ?_
  · simp [qInvTotal_c0, qInvTotal_c1]
    linear_combination hinv
  · simp [qInvTotal_c0, qInvTotal_c1]
    ring

theorem qInvTotal_zero : qInvTotal zero2 = zero2 := by decide +kernel

/-- Fp2 is a field, with the inverse of R212. -/
@[reducible] def fieldFp2 : Field Fp2 :=
  { ringFp2 with
    inv := qInvTotal
    exists_pair_ne := ⟨zero2, one2, by decide +kernel⟩
    mul_inv_cancel := fun _ => qMul_qInvTotal
    inv_zero := qInvTotal_zero
    nnqsmul := _
    nnqsmul_def := fun _ _ => rfl
    qsmul := _
    qsmul_def := fun _ _ => rfl }

theorem qInv_of_ne_zero {a : Fp2} (ha : a ≠ zero2) : qInv a = .ok (qInvTotal a) := if_neg ha

theorem qInv_of_eq_zero {a : Fp2} (ha : a = zero2) : qInv a = .error (fails .noInverse) := if_pos ha

theorem qDiv_of_ne_zero (a : Fp2) {b : Fp2} (hb : b ≠ zero2) : qDiv a b = .ok (qMul a (qInvTotal b)) := by
  rw [qDiv, qInv_of_ne_zero hb, res_ok_bind]

theorem qDiv_of_eq_zero (a : Fp2) {b : Fp2} (hb : b = zero2) : qDiv a b = .error (fails .noInverse) := by
  rw [qDiv, qInv_of_eq_zero hb, res_error_bind]

theorem qInvTotal_mul {a : Fp2} (ha : a ≠ zero2) : qMul (qInvTotal a) a = one2 :=
  (qRing_mul_comm _ a).trans (qMul_qInvTotal ha)

theorem quotient2_mul (a : Fp2) {b : Fp2} (hb : b ≠ zero2) : qMul (qMul a (qInvTotal b)) b = a := by
  rw [qRing_mul_assoc, qInvTotal_mul hb, qRing_mul_one]

/-! The Frobenius map (R213). -/

theorem frob2_mod {k m : Nat} (hm : 2 ∣ m) : frob2 (k % m) = frob2 k := by
  rw [frob2, frob2, Nat.mod_mod_of_dvd k hm]

theorem qFrob_mod (a : Fp2) {k m : Nat} (hm : 2 ∣ m) : qFrob a (k % m) = qFrob a k := by
  rw [qFrob, qFrob, frob2_mod hm]

theorem toZ_frob2 (k : Nat) : toZ (frob2 k) = (-1) ^ k := by
  have hp : ((fieldP - 1 : Nat) : ZMod fieldP) = -1 := by
    rw [Nat.cast_sub fieldP_pos, ZMod.natCast_self, Nat.cast_one, zero_sub]
  rcases Nat.even_or_odd k with hk | hk
  · rw [frob2, if_pos (Nat.even_iff.mp hk), hk.neg_one_pow, toZ_toFp, Nat.cast_one]
  · rw [frob2, if_neg (by rw [Nat.odd_iff.mp hk]; decide), hk.neg_one_pow, toZ_toFp, hp]

theorem qFrob_zero (a : Fp2) : qFrob a 0 = a := fp2_toZ_ext rfl (by simp [qFrob, toZ_frob2])

theorem qFrob_succ (a : Fp2) (k : Nat) : qFrob a (k + 1) = qConj (qFrob a k) :=
  fp2_toZ_ext rfl (by simp [qFrob, toZ_frob2, pow_succ])

/-- `q_frob(a, k)` is `a^(p^k)`. -/
theorem qPow_fieldP_pow (a : Fp2) (k : Nat) : qPow a (fieldP ^ k) = qFrob a k := by
  induction k with
  | zero => rw [qFrob_zero]; exact qRing_one_mul a
  | succ k ih => rw [pow_succ, qPow_mul, ih, qPow_fieldP, qFrob_succ]

/-! The square root (R214). -/

/-- Fermat's little theorem in Fp2: the multiplicative group has order `p² - 1`. -/
theorem qPow_order {a : Fp2} (ha : a ≠ zero2) : qPow a (fieldP ^ 2 - 1) = one2 := by
  let := fieldFp2
  have hp : fieldP ^ 2 = fieldP ^ 2 - 1 + 1 := by decide +kernel
  have hself : qMul (qPow a (fieldP ^ 2 - 1)) a = qMul one2 a := by
    rw [qRing_one_mul]
    calc qMul (qPow a (fieldP ^ 2 - 1)) a = qPow a (fieldP ^ 2) := by
          rw [qPow_eq_pow, qPow_eq_pow, hp]; exact (pow_succ a _).symm
      _ = a := by rw [qPow_fieldP_pow, qFrob_succ, qFrob_succ, qFrob_zero]; exact fp2_toZ_ext rfl (by simp)
  exact mul_right_cancel₀ ha hself

/-- The candidate of `q_sqrt`. -/
def sqrtCand2 (a : Fp2) : Fp2 := qPow a sqrtExp2

/-- The value `q_sqrt` looks up among the roots of unity: the square of the candidate over the operand. -/
def sqrtCheck2 (a : Fp2) : Fp2 := qMul (qSqr (sqrtCand2 a)) (qInvTotal a)

/-- A root of R13 with an even index `i` is the square of `ROOT[i/2]`. -/
theorem even_roots : ∀ i ∈ [0, 2, 4, 6], root (i / 2) ≠ zero2 ∧ qMul (root (i / 2)) (root (i / 2)) = root i := by
  decide +kernel

theorem evenRootIndex_of_some {c : Fp2} {i : Nat} (h : evenRootIndex c = some i) :
    root i = c ∧ root (i / 2) ≠ zero2 ∧ qMul (root (i / 2)) (root (i / 2)) = root i :=
  ⟨of_decide_eq_true (List.find?_some (p := fun i => decide (root i = c)) h),
    even_roots i (List.mem_of_find?_eq_some h)⟩

/-- In a field with `u² = -1` a fourth root of unity is one of `1, u, -1, -u`. -/
theorem fourth_root_cases {F : Type} [Field F] {c u : F} (hu : u * u = -1) (h : c ^ 4 = 1) :
    c = 1 ∨ c = u ∨ c = -1 ∨ c = -u := by
  have hfactor : (c - 1) * ((c - u) * ((c + 1) * (c + u))) = 0 := by
    linear_combination h + (1 - c ^ 2) * hu
  simpa [sub_eq_zero, add_eq_zero_iff_eq_neg] using hfactor

theorem evenRootIndex_of_fourth_root {c : Fp2} (h : qPow c 4 = one2) : evenRootIndex c ≠ none := by
  let := fieldFp2
  rw [qPow_eq_pow] at h
  have hu : mkFp2 0 1 * mkFp2 0 1 = -1 := by decide +kernel
  obtain rfl | rfl | rfl | rfl := fourth_root_cases hu h <;> decide +kernel

/-- The check of a square `y²` is a fourth root of unity, as `y^(p²-1) = 1`. -/
theorem sqrtCheck2_of_square {y : Fp2} (hy : y ≠ zero2) : qPow (sqrtCheck2 (qMul y y)) 4 = one2 := by
  let := fieldFp2
  have hexp : 2 * (sqrtExp2 * 8) = fieldP ^ 2 - 1 + 8 := by decide +kernel
  have hyy : y * y ≠ 0 := mul_self_ne_zero.mpr hy
  have hord : y ^ (fieldP ^ 2 - 1) = 1 := (qPow_eq_pow y _).symm.trans (qPow_order hy)
  have hcand : sqrtCand2 (y * y) ^ 8 = (y * y) ^ 4 := by
    calc sqrtCand2 (y * y) ^ 8 = y ^ (2 * (sqrtExp2 * 8)) := by
          rw [sqrtCand2, qPow_eq_pow, pow_mul, pow_mul, pow_two]
      _ = (y * y) ^ 4 := by rw [hexp, pow_add, hord]; ring
  rw [qPow_eq_pow]
  calc (sqrtCand2 (y * y) * sqrtCand2 (y * y) * (y * y)⁻¹) ^ 4
      = sqrtCand2 (y * y) ^ 8 * ((y * y) ^ 4)⁻¹ := by ring
    _ = 1 := by rw [hcand, mul_inv_cancel₀ (pow_ne_zero 4 hyy)]

/-- The value `q_sqrt` finds squares to the operand. -/
theorem sqrtCand2_div_root {a w : Fp2} (ha : a ≠ zero2) (hw : w ≠ zero2) (h : qMul w w = sqrtCheck2 a) :
    qMul (qMul (sqrtCand2 a) (qInvTotal w)) (qMul (sqrtCand2 a) (qInvTotal w)) = a := by
  let := fieldFp2
  have ha : a ≠ 0 := ha
  have hw : w ≠ 0 := hw
  change sqrtCand2 a * w⁻¹ * (sqrtCand2 a * w⁻¹) = a
  change w * w = sqrtCand2 a * sqrtCand2 a * a⁻¹ at h
  field_simp at h ⊢
  linear_combination -h

/-- `q_sqrt` of a non-zero operand: one of its two roots, or NoDivisor where there is none. -/
theorem qSqrt_cases {a : Fp2} (ha : a ≠ zero2) :
    (∃ x, qMul x x = a ∧ qSqrt a = .ok (qGreater x (qNeg x))) ∨
    ((¬∃ y, qMul y y = a) ∧ qSqrt a = .error (fails .noDivisor)) := by
  have hcheck : qDiv (qSqr (qPow a sqrtExp2)) a = .ok (sqrtCheck2 a) := qDiv_of_ne_zero _ ha
  rw [qSqrt, hcheck, res_ok_bind]
  cases hi : evenRootIndex (sqrtCheck2 a) with
  | none =>
    refine .inr ⟨?_, rfl⟩
    rintro ⟨y, rfl⟩
    refine evenRootIndex_of_fourth_root (sqrtCheck2_of_square ?_) hi
    rintro rfl
    exact ha (qRing_zero_mul _)
  | some i =>
    obtain ⟨hcheck, hne, hsq⟩ := evenRootIndex_of_some hi
    refine .inl ⟨_, sqrtCand2_div_root ha hne (hsq.trans hcheck), ?_⟩
    dsimp only
    rw [qDiv_of_ne_zero _ hne, res_ok_bind]
    rfl

theorem qSqrt_of_eq_zero {a : Fp2} (ha : a = zero2) : qSqrt a = .error (fails .noInverse) := by
  rw [qSqrt, qDiv_of_eq_zero _ ha, res_error_bind]

/-- The order of R214: by the imaginary part, and by the real part where the imaginary parts agree. -/
def LexLess (x y : Fp2) : Prop := x.c1.val < y.c1.val ∨ (x.c1.val = y.c1.val ∧ x.c0.val < y.c0.val)

theorem lexLess_of_not_lexLess {x y : Fp2} (hne : x ≠ y) (h : ¬LexLess y x) : LexLess x y := by
  have hval : ¬(x.c0.val = y.c0.val ∧ x.c1.val = y.c1.val) := fun ⟨h0, h1⟩ => hne (fp2_ext (Fin.ext h0) (Fin.ext h1))
  unfold LexLess at h ⊢
  omega

/-- `qGreater` answers the greater of two different values. -/
theorem qGreater_cases {x y : Fp2} (hne : x ≠ y) :
    (qGreater x y = x ∧ LexLess y x) ∨ (qGreater x y = y ∧ LexLess x y) := by
  have hcond : (y.c1.val < x.c1.val || (x.c1.val = y.c1.val && decide (y.c0.val < x.c0.val))) = true ↔ LexLess y x := by
    simp only [LexLess, Bool.or_eq_true, Bool.and_eq_true, decide_eq_true_eq,
      eq_comm (a := y.c1.val)]
  by_cases h : LexLess y x
  · exact .inl ⟨if_pos (hcond.mpr h), h⟩
  · exact .inr ⟨if_neg (mt hcond.mp h), lexLess_of_not_lexLess hne h⟩

/-- `p` is odd, so a non-zero value is not its own opposite. -/
theorem ne_qNeg {x : Fp2} (hx : x ≠ zero2) : x ≠ qNeg x := by
  let := fieldFp2
  intro h
  have htwo : (2 : Fp2) ≠ 0 := by decide +kernel
  have hdouble : 2 * x = 0 := by
    change x = -x at h
    linear_combination h
  exact (mul_ne_zero htwo hx) hdouble

/-- The greater of `x` and `-x` has the square of `x`, and its opposite is the smaller one. -/
theorem qGreater_qNeg {x : Fp2} (hx : x ≠ zero2) :
    qMul (qGreater x (qNeg x)) (qGreater x (qNeg x)) = qMul x x ∧
    LexLess (qNeg (qGreater x (qNeg x))) (qGreater x (qNeg x)) := by
  let := fieldFp2
  obtain ⟨he, hless⟩ | ⟨he, hless⟩ := qGreater_cases (ne_qNeg hx) <;> rw [he]
  · exact ⟨rfl, hless⟩
  · refine ⟨neg_mul_neg x x, ?_⟩
    rwa [show qNeg (qNeg x) = x from neg_neg x]

end Sys2Proof.Machine
end

section
/-! PROOFS. The Fp2 instructions (spec/42_fp2.md R215 to R230): each meaning writes one register or raises, and the
value is what the functions of the field are. -/

namespace Sys2Proof.Machine

open Sys2Proof

/-! Moves and tests (R215 to R217, R219, R229). -/

theorem qSgn0_iff (a : Fp2) : qSgn0 a = true ↔ a.c0.val % 2 = 1 ∨ (a.c0.val = 0 ∧ a.c1.val % 2 = 1) := by
  simp only [qSgn0, Bool.or_eq_true, Bool.and_eq_true, decide_eq_true_eq]

theorem fp2_eq_iff_val (a b : Fp2) : a = b ↔ a.c0.val = b.c0.val ∧ a.c1.val = b.c1.val :=
  ⟨fun h => h ▸ ⟨rfl, rfl⟩, fun ⟨h0, h1⟩ => fp2_ext (Fin.ext h0) (Fin.ext h1)⟩

/-- Settles O28: each is one write, and the two tests answer what their integers say. -/
theorem quadraticMovesAndTests : Obligations.QuadraticMovesAndTests := by
  refine ⟨fun a b c n => ⟨rfl, rfl, rfl, rfl, rfl⟩, fun s a b c => ⟨?_, ?_, ?_, ?_, ?_, ?_⟩⟩
  · exact runs_writeQ rfl fun _ hu => hu
  · exact runs_writeQ rfl fun _ hu => by rw [hu]; exact ⟨rfl, rfl⟩
  · exact runs_writeF rfl fun _ hu => hu
  · exact runs_writeF rfl fun _ hu => hu
  · exact runs_writeR rfl fun _ hu => answers_boolWord (qSgn0_iff _) hu
  · exact runs_writeR rfl fun _ hu => answers_boolWord (decide_eq_true_iff.trans (fp2_eq_iff_val _ _)) hu

/-! Arithmetic (R220 to R224, R230). -/

/-- One write to `q[a]` of a value whose coefficients are the residues of two integers. -/
theorem runs_writeQ_residues {i : Instr} {s : State} {a : RegIdx} {v : Fp2} {z0 z1 : Int}
    (h : exec i s = retire s (.ok (writeQ s a v))) (h0 : (v.c0.val : Int) = z0 % fieldP)
    (h1 : (v.c1.val : Int) = z1 % fieldP) :
    Runs i s { q := [a] } (fun u => ((readQ u a).c0.val : Int) = z0 % fieldP ∧
      ((readQ u a).c1.val : Int) = z1 % fieldP) :=
  runs_writeQ h fun _ hu => by rw [hu]; exact ⟨h0, h1⟩

theorem val_qMul_c0 (a b : Fp2) :
    ((qMul a b).c0.val : Int) = (a.c0.val * b.c0.val - a.c1.val * b.c1.val : Int) % fieldP :=
  val_eq_emod_of_toZ (by
    simp only [qMul_c0, toZ_fsub, toZ_fmul, Int.cast_sub, Int.cast_mul, intCast_val])

theorem val_qMul_c1 (a b : Fp2) :
    ((qMul a b).c1.val : Int) = (a.c0.val * b.c1.val + a.c1.val * b.c0.val : Int) % fieldP :=
  val_eq_emod_of_toZ (by
    simp only [qMul_c1, toZ_fadd, toZ_fmul, Int.cast_add, Int.cast_mul, intCast_val])

/-- The square by the difference of two squares, as R224 writes it. -/
theorem val_qSqr_c0 (a : Fp2) :
    ((qSqr a).c0.val : Int) = ((a.c0.val + a.c1.val) * (a.c0.val - a.c1.val) : Int) % fieldP := by
  rw [qSqr, val_qMul_c0]
  congr 1
  ring

theorem val_qSqr_c1 (a : Fp2) : ((qSqr a).c1.val : Int) = (2 * a.c0.val * a.c1.val : Int) % fieldP := by
  rw [qSqr, val_qMul_c1]
  congr 1
  ring

/-- Settles O29: the functions of R211 on each coefficient, as integers modulo `p`. -/
theorem quadraticArithmetic : Obligations.QuadraticArithmetic := by
  refine ⟨fun a b c => ⟨rfl, rfl, rfl, rfl, rfl, rfl⟩, fun s a b c => ⟨?_, ?_, ?_, ?_, ?_, ?_⟩⟩
  · exact runs_writeQ_residues rfl (val_fadd _ _) (val_fadd _ _)
  · exact runs_writeQ_residues rfl (val_fsub _ _) (val_fsub _ _)
  · exact runs_writeQ_residues rfl (val_fneg _) (val_fneg _)
  · exact runs_writeQ_residues rfl (val_qMul_c0 _ _) (val_qMul_c1 _ _)
  · exact runs_writeQ_residues rfl (val_qSqr_c0 _) (val_qSqr_c1 _)
  · exact runs_writeQ_residues rfl (val_fsub _ _) (val_fadd _ _)

/-! Inverse, quotient and square root (R225, R226, R228). -/

section
variable (s : State) (a b c : RegIdx)

theorem qInv_exec : exec (.qInv a b) s = retire s (qInv (readQ s b) >>= fun v => .ok (writeQ s a v)) := rfl

theorem qDiv_exec :
    exec (.qDiv a b c) s = retire s (qDiv (readQ s b) (readQ s c) >>= fun v => .ok (writeQ s a v)) := rfl

theorem qSqrt_exec : exec (.qSqrt a b) s = retire s (qSqrt (readQ s b) >>= fun v => .ok (writeQ s a v)) := rfl

end

/-- Settles O30: the conjugate over the norm inverts every non-zero value. -/
theorem quadraticInverseAndQuotient : Obligations.QuadraticInverseAndQuotient := by
  refine ⟨fun a b c => ⟨rfl, rfl⟩, fun s a b c => ?_⟩
  have hinv := qInv_exec s a b
  have hdiv := qDiv_exec s a b c
  refine ⟨fun hb => ?_, fun hb => ?_, fun hc => ?_, fun hc => ?_⟩
  · rw [qInv_of_ne_zero hb, res_ok_bind] at hinv
    exact runs_writeQ hinv fun _ hu => by rw [hu, qInvTotal_mul hb]
  · rw [qInv_of_eq_zero hb, res_error_bind] at hinv
    exact traps_of_retire hinv
  · rw [qDiv_of_ne_zero _ hc, res_ok_bind] at hdiv
    exact runs_writeQ hdiv fun _ hu => by rw [hu, quotient2_mul _ hc]
  · rw [qDiv_of_eq_zero _ hc, res_error_bind] at hdiv
    exact traps_of_retire hdiv

/-- Settles O31: the candidate of R214 over a root of unity is a root of every square, and then the greater of the two
opposite roots is answered. -/
theorem quadraticSquareRoot : Obligations.QuadraticSquareRoot := by
  refine ⟨fun a b => rfl, fun s a b => ?_⟩
  have hexec := qSqrt_exec s a b
  refine ⟨fun hb hroot => ?_, fun hb hno => ?_, fun hb => ?_⟩
  · obtain ⟨x, hx, hok⟩ | ⟨hno, _⟩ := qSqrt_cases hb
    · have hx0 : x ≠ zero2 := by
        rintro rfl
        exact hb (hx.symm.trans (qRing_zero_mul _))
      rw [hok, res_ok_bind] at hexec
      obtain ⟨hsq, hless⟩ := qGreater_qNeg hx0
      exact runs_writeQ hexec fun _ hu => by rw [hu]; exact ⟨hsq.trans hx, hless⟩
    · exact absurd hroot hno
  · obtain ⟨x, hx, _⟩ | ⟨_, herr⟩ := qSqrt_cases hb
    · exact absurd ⟨x, hx⟩ hno
    · rw [herr, res_error_bind] at hexec
      exact traps_of_retire hexec
  · rw [qSqrt_of_eq_zero hb, res_error_bind] at hexec
    exact traps_of_retire hexec

end Sys2Proof.Machine
end

section
/-! PROOFS. The Frobenius map of Fp12 (spec/43_fp6.md R244, spec/44_fp12.md R273). Fp12 is Fp2 with a sixth root `w` of
`ξ` adjoined; the power `p^k` is additive, is `q_frob` on the coefficients, and multiplies `w` by `G12[k mod 12]`. -/

namespace Sys2Proof.Machine

open Sys2Proof

/-! Fp12 over Fp2. -/

/-- Fp2 inside Fp6. -/
@[reducible] def fp2ToFp6 :
    letI := ringFp2
    letI := ringFp6
    Fp2 →+* Fp6 :=
  letI := ringFp2
  letI := ringFp6
  { toFun := fun x => ⟨x, zero2, zero2⟩
    map_one' := rfl
    map_zero' := rfl
    map_add' := fun x y => fp6_ext rfl (qRing_zero_add zero2).symm (qRing_zero_add zero2).symm
    map_mul' := fun x y => by
      change _ = sMul ⟨x, zero2, zero2⟩ ⟨y, zero2, zero2⟩
      rw [sMul_eq]
      refine fp6_ext ?_ ?_ ?_
      · change x * y = x * y + xi * (0 * 0 + 0 * 0); ring
      · change 0 = x * 0 + 0 * y + xi * (0 * 0); ring
      · change 0 = x * 0 + 0 * 0 + 0 * y; ring }

/-- Fp6 inside Fp12. -/
@[reducible] def fp6ToFp12 :
    letI := ringFp6
    letI := ringFp12
    Fp6 →+* Fp12 :=
  letI := ringFp6
  letI := ringFp12
  { toFun := fun x => ⟨x, zero6⟩
    map_one' := rfl
    map_zero' := rfl
    map_add' := fun x y => fp12_ext rfl (add_zero (0 : Fp6)).symm
    map_mul' := fun x y => by
      change _ = tMul ⟨x, zero6⟩ ⟨y, zero6⟩
      rw [tMul_eq]
      refine fp12_ext ?_ ?_
      · change x * y = x * y + elemV * (0 * 0); ring
      · change 0 = x * 0 + 0 * y; ring }

/-- Fp2 inside Fp12. -/
def fp2ToFp12 :
    letI := ringFp2
    letI := ringFp12
    Fp2 →+* Fp12 :=
  letI := ringFp2
  letI := ringFp6
  letI := ringFp12
  fp6ToFp12.comp fp2ToFp6

/-- The element `w` of Fp12 (spec/44_fp12.md R270). -/
def elemW : Fp12 := ⟨zero6, one6⟩

/-- The powers `1, v, v²` are a basis of Fp6 over Fp2. -/
theorem fp6_expand (a : Fp6) :
    letI := ringFp6
    a = fp2ToFp6 a.c0 + fp2ToFp6 a.c1 * elemV + fp2ToFp6 a.c2 * elemV ^ 2 := by
  let := ringFp2
  let := ringFp6
  rw [pow_two]
  change a = sAdd (sAdd ⟨a.c0, 0, 0⟩ (sMul ⟨a.c1, 0, 0⟩ ⟨0, 1, 0⟩)) (sMul ⟨a.c2, 0, 0⟩ (sMul ⟨0, 1, 0⟩ ⟨0, 1, 0⟩))
  simp only [sMul_eq]
  refine fp6_ext ?_ ?_ ?_
  · change a.c0 = a.c0 + _ + _
    ring
  · change a.c1 = 0 + _ + _
    ring
  · change a.c2 = 0 + _ + _
    ring

/-- The powers `1, w` are a basis of Fp12 over Fp6. -/
theorem fp12_expand6 (a : Fp12) :
    letI := ringFp12
    a = fp6ToFp12 a.c0 + fp6ToFp12 a.c1 * elemW := by
  let := ringFp6
  let := ringFp12
  change a = tAdd ⟨a.c0, 0⟩ (tMul ⟨a.c1, 0⟩ ⟨0, 1⟩)
  rw [tMul_eq]
  refine fp12_ext ?_ ?_
  · change a.c0 = a.c0 + (a.c1 * 0 + elemV * (0 * 1))
    ring
  · change a.c1 = 0 + (a.c1 * 1 + 0 * 0)
    ring

theorem elemW_sq :
    letI := ringFp12
    elemW ^ 2 = fp6ToFp12 elemV := by
  let := ringFp12
  rw [pow_two]
  change tMul elemW elemW = _
  decide +kernel

theorem elemV_cube :
    letI := ringFp6
    elemV ^ 3 = fp2ToFp6 xi := by
  let := ringFp6
  rw [pow_three]
  change sMul elemV (sMul elemV elemV) = _
  decide +kernel

/-- `w` is a sixth root of `ξ`. -/
theorem elemW_pow_six :
    letI := ringFp12
    elemW ^ 6 = fp2ToFp12 xi := by
  let := ringFp2
  let := ringFp6
  let := ringFp12
  change _ = fp6ToFp12 (fp2ToFp6 xi)
  rw [← elemV_cube, map_pow, ← elemW_sq, ← pow_mul]

/-- The powers `1, w, …, w⁵` are a basis of Fp12 over Fp2. -/
theorem fp12_expand (a : Fp12) :
    letI := ringFp12
    a = fp2ToFp12 a.c0.c0 + fp2ToFp12 a.c1.c0 * elemW + fp2ToFp12 a.c0.c1 * elemW ^ 2 +
      fp2ToFp12 a.c1.c1 * elemW ^ 3 + fp2ToFp12 a.c0.c2 * elemW ^ 4 + fp2ToFp12 a.c1.c2 * elemW ^ 5 := by
  let := ringFp2
  let := ringFp6
  let := ringFp12
  conv_lhs => rw [fp12_expand6 a, fp6_expand a.c0, fp6_expand a.c1]
  simp only [map_add, map_mul, map_pow, ← elemW_sq]
  simp only [fp2ToFp12, RingHom.comp_apply]
  ring

/-! The power `p^k`. -/

/-- Where `p` is zero the power `p^k` is additive. -/
theorem add_pow_fieldP_pow {R : Type} [CommRing R] (hp : (fieldP : R) = 0) (x y : R) (k : Nat) :
    (x + y) ^ fieldP ^ k = x ^ fieldP ^ k + y ^ fieldP ^ k := by
  obtain ⟨r, hr⟩ := exists_add_pow_prime_pow_eq fieldP_prime x y k
  rw [hr, hp, zero_mul, zero_mul, zero_mul, add_zero]

theorem fieldP_fp12 :
    letI := ringFp12
    (fieldP : Fp12) = 0 := by
  let := ringFp2
  let := ringFp12
  have hp : ((fieldP : Nat) : Fp2) = 0 := by
    rw [natCast_fp2]
    exact fp2_toZ_ext (b := zero2) (by simp) (by simp)
  rw [← map_natCast fp2ToFp12, hp, map_zero]

theorem tPow_eq_pow (a : Fp12) (n : Nat) :
    letI := ringFp12
    tPow a n = a ^ n := by
  let := ringFp12
  rw [tPow_eq_repMul]
  induction n with
  | zero => exact (pow_zero a).symm
  | succ n ih => rw [repMul, ih, pow_succ]; rfl

/-- `G12[k mod 12] = ξ^((p^k-1)/6)` for every `k`: the table of R14 has period 12. -/
theorem g12_mod_succ : ∀ k < 12, g12 ((k + 1) % 12) = qMul (qConj (g12 k)) (g12 1) := by decide +kernel

theorem g12_mod_eq_qPow (k : Nat) : g12 (k % 12) = qPow xi ((fieldP ^ k - 1) / 6) := by
  induction k with
  | zero => rfl
  | succ k ih =>
    rw [← Nat.mod_add_mod, g12_mod_succ _ (Nat.mod_lt k (by decide)), ih, g12_one, frobExponent_succ, qPow_add,
      qPow_mul, qPow_fieldP]

/-- The power `p^k` of `w`. -/
theorem elemW_pow_fieldP_pow (k : Nat) :
    letI := ringFp12
    elemW ^ fieldP ^ k = fp2ToFp12 (g12 (k % 12)) * elemW := by
  let := ringFp2
  let := ringFp12
  have hexp : fieldP ^ k = 6 * ((fieldP ^ k - 1) / 6) + 1 := by
    rw [Nat.mul_div_cancel' (six_dvd_pow_sub_one k), Nat.sub_add_cancel (Nat.pow_pos fieldP_pos)]
  rw [g12_mod_eq_qPow, qPow_eq_pow, map_pow, ← elemW_pow_six, ← pow_mul, ← pow_succ, ← hexp]

/-- The entries of `G6A` and `G6B` are powers of that of `G12`, over their common period. -/
theorem g6a_g6b_mod : ∀ k < 12,
    g6a (k % 6) = qMul (g12 k) (g12 k) ∧ g6b (k % 6) = qMul (g6a (k % 6)) (g6a (k % 6)) := by decide +kernel

/-- `s_frob` at the index `t_frob` gives it, by the entry of `G12`. -/
theorem sFrob_mod (a : Fp6) (k : Nat) :
    letI := ringFp2
    sFrob a (k % 12) = ⟨qFrob a.c0 k, qFrob a.c1 k * g12 (k % 12) ^ 2, qFrob a.c2 k * g12 (k % 12) ^ 4⟩ := by
  let := ringFp2
  obtain ⟨ha, hb⟩ := g6a_g6b_mod (k % 12) (Nat.mod_lt k (by decide))
  rw [sFrob, hb, ha, qFrob_mod _ (by decide), qFrob_mod _ (by decide), qFrob_mod _ (by decide)]
  refine fp6_ext rfl ?_ ?_
  · change qFrob a.c1 k * (g12 (k % 12) * g12 (k % 12)) = qFrob a.c1 k * g12 (k % 12) ^ 2
    ring
  · change qFrob a.c2 k * (g12 (k % 12) * g12 (k % 12) * (g12 (k % 12) * g12 (k % 12))) =
      qFrob a.c2 k * g12 (k % 12) ^ 4
    ring

/-- `t_frob` in the basis of the powers of `w`. -/
theorem tFrob_expand (a : Fp12) (k : Nat) :
    letI := ringFp12
    let e := fp2ToFp12
    let y := e (g12 (k % 12)) * elemW
    tFrob a k = e (qFrob a.c0.c0 k) + e (qFrob a.c1.c0 k) * y + e (qFrob a.c0.c1 k) * y ^ 2 +
      e (qFrob a.c1.c1 k) * y ^ 3 + e (qFrob a.c0.c2 k) * y ^ 4 + e (qFrob a.c1.c2 k) * y ^ 5 := by
  let := ringFp2
  let := ringFp12
  have he (x y : Fp2) : fp2ToFp12 (qMul x y) = fp2ToFp12 x * fp2ToFp12 y := map_mul fp2ToFp12 x y
  rw [fp12_expand (tFrob a k), tFrob, sFrob_mod, sFrob_mod]
  simp only [sScale, he, map_mul, map_pow]
  ring

/-- `t_frob(a, k)` is `a^(p^k)`. -/
theorem tPow_fieldP_pow (a : Fp12) (k : Nat) : tPow a (fieldP ^ k) = tFrob a k := by
  let := ringFp2
  let := ringFp12
  have he (x : Fp2) : fp2ToFp12 x ^ fieldP ^ k = fp2ToFp12 (qFrob x k) := by
    rw [← map_pow, ← qPow_eq_pow, qPow_fieldP_pow]
  have hw (n : Nat) : (elemW ^ n) ^ fieldP ^ k = (fp2ToFp12 (g12 (k % 12)) * elemW) ^ n := by
    rw [pow_right_comm, elemW_pow_fieldP_pow]
  rw [tPow_eq_pow, tFrob_expand]
  conv_lhs => rw [fp12_expand a]
  simp only [add_pow_fieldP_pow fieldP_fp12, mul_pow _ _ (fieldP ^ k), he, hw, elemW_pow_fieldP_pow]

/-- Settles O36: the power `p^k` acts on the six coefficients over Fp2 by `q_frob` and on `w` by its entry of `G12`, and
that is `t_frob`. -/
theorem frobeniusIsThePowerOfP : Obligations.FrobeniusIsThePowerOfP := by
  refine ⟨fun a b n => ⟨rfl, rfl⟩, fun s a b n => ⟨?_, ?_⟩⟩
  · exact runs_writeQ rfl fun _ hu => by rw [hu, ← qPow_eq_repMul, qPow_fieldP_pow]
  · exact runs_writeT rfl fun _ hu => by rw [hu, ← tPow_eq_repMul, tPow_fieldP_pow]

end Sys2Proof.Machine
end

section
/-! PROOFS. Fp6 and Fp12 as fields (spec/43_fp6.md R240, R243, spec/44_fp12.md R270, R272). `ξ` is no cube of Fp2, so the
norm of a non-zero element of Fp6 is not zero; `ξ` is no square of Fp2 and the norm of `v` is `ξ`, so `v` is no square of
Fp6, and the norm of a non-zero element of Fp12 is not zero. -/

namespace Sys2Proof.Machine

open Sys2Proof

/-! The nonresidue of Fp2. -/

/-- A cube has the power `(p² - 1)/3` equal to 1, and `ξ` has `G6A[2]`. -/
theorem xi_not_cube (y : Fp2) : qPow y 3 ≠ xi := by
  intro h
  have hy : y ≠ zero2 := by
    rintro rfl
    exact absurd h (by decide +kernel)
  have hone : qPow xi ((fieldP ^ 2 - 1) / 3) = one2 := by
    rw [← h, ← qPow_mul, show 3 * ((fieldP ^ 2 - 1) / 3) = fieldP ^ 2 - 1 by decide +kernel, qPow_order hy]
  rw [← (g6a_g6b_eq_qPow 2 (by decide)).1] at hone
  exact absurd hone (by decide +kernel)

/-- The norm of `ξ` is 2, no square modulo `p`. -/
theorem xi_not_square : ¬∃ y : Fp2, qMul y y = xi := no_root2_of_fpow xi (by decide +kernel)

theorem eq_zero_of_cube_eq_xi_mul_cube {x y : Fp2} :
    letI := ringFp2
    x ^ 3 = xi * y ^ 3 → x = zero2 ∧ y = zero2 := by
  let := fieldFp2
  intro h
  have hy : y = 0 := by
    by_contra hy
    refine xi_not_cube (x / y) ?_
    rw [qPow_eq_pow, div_pow, div_eq_iff (pow_ne_zero 3 hy)]
    exact h
  subst hy
  exact ⟨eq_zero_of_pow_eq_zero (n := 3) (by rw [h]; ring), rfl⟩

/-! The inverse of Fp6 (R243). -/

/-- The element `(t0, t1, t2)` of R243: the product of the two other conjugates. -/
def adj6 (a : Fp6) : Fp6 :=
  ⟨qSub (qSqr a.c0) (qMulnr (qMul a.c2 a.c1)), qSub (qMulnr (qSqr a.c2)) (qMul a.c0 a.c1),
    qSub (qSqr a.c1) (qMul a.c0 a.c2)⟩

/-- The value `d` of R243: the norm of Fp6 over Fp2. -/
def norm6 (a : Fp6) : Fp2 :=
  qAdd (qMulnr (qAdd (qMul a.c2 (adj6 a).c1) (qMul a.c1 (adj6 a).c2))) (qMul a.c0 (adj6 a).c0)

theorem adj6_eq (a : Fp6) :
    letI := ringFp2
    adj6 a = ⟨a.c0 * a.c0 - xi * (a.c2 * a.c1), xi * (a.c2 * a.c2) - a.c0 * a.c1, a.c1 * a.c1 - a.c0 * a.c2⟩ := by
  simp only [adj6, qMulnr_eq, qSqr]; rfl

theorem norm6_eq (a : Fp6) :
    letI := ringFp2
    norm6 a = a.c0 ^ 3 + xi * a.c1 ^ 3 + xi ^ 2 * a.c2 ^ 3 - 3 * (xi * (a.c0 * a.c1 * a.c2)) := by
  let := ringFp2
  rw [norm6, qMulnr_eq, adj6_eq]
  change xi * (a.c2 * (xi * (a.c2 * a.c2) - a.c0 * a.c1) + a.c1 * (a.c1 * a.c1 - a.c0 * a.c2)) +
    a.c0 * (a.c0 * a.c0 - xi * (a.c2 * a.c1)) = _
  ring

theorem sInvTotal_eq_sScale (a : Fp6) : sInvTotal a = sScale (adj6 a) (qInvTotal (norm6 a)) :=
  fp6_ext (qRing_mul_comm _ _) (qRing_mul_comm _ _) (qRing_mul_comm _ _)

theorem sMul_sScale (a b : Fp6) (c : Fp2) : sMul a (sScale b c) = sScale (sMul a b) c := by
  let := ringFp2
  simp only [sMul_eq]
  refine fp6_ext ?_ ?_ ?_
  · change a.c0 * (b.c0 * c) + xi * (a.c1 * (b.c2 * c) + a.c2 * (b.c1 * c)) =
      (a.c0 * b.c0 + xi * (a.c1 * b.c2 + a.c2 * b.c1)) * c
    ring
  · change a.c0 * (b.c1 * c) + a.c1 * (b.c0 * c) + xi * (a.c2 * (b.c2 * c)) =
      (a.c0 * b.c1 + a.c1 * b.c0 + xi * (a.c2 * b.c2)) * c
    ring
  · change a.c0 * (b.c2 * c) + a.c1 * (b.c1 * c) + a.c2 * (b.c0 * c) =
      (a.c0 * b.c2 + a.c1 * b.c1 + a.c2 * b.c0) * c
    ring

theorem sMul_adj6 (a : Fp6) : sMul a (adj6 a) = ⟨norm6 a, zero2, zero2⟩ := by
  let := ringFp2
  rw [sMul_eq, norm6_eq, adj6_eq]
  refine fp6_ext ?_ ?_ ?_
  · dsimp only
    ring
  · change _ = 0
    dsimp only
    ring
  · change _ = 0
    dsimp only
    ring

theorem norm6_sMul (a b : Fp6) : norm6 (sMul a b) = qMul (norm6 a) (norm6 b) := by
  let := ringFp2
  simp only [norm6_eq, sMul_eq]
  change _ = (_ : Fp2) * _
  ring

/-- The norm is zero only at zero: `t1³ - ξ t2³` of R243 is a multiple of the norm, so `t1` and `t2` are zero with it, and
then `c1³ = ξ c2³`. -/
theorem norm6_ne_zero {a : Fp6} (ha : a ≠ zero6) : norm6 a ≠ zero2 := by
  let := fieldFp2
  intro h
  rw [norm6_eq] at h
  have h : a.c0 ^ 3 + xi * a.c1 ^ 3 + xi ^ 2 * a.c2 ^ 3 - 3 * (xi * (a.c0 * a.c1 * a.c2)) = 0 := h
  have hadj : (xi * a.c2 ^ 2 - a.c0 * a.c1) ^ 3 = xi * (a.c1 ^ 2 - a.c0 * a.c2) ^ 3 := by
    linear_combination (xi * a.c2 ^ 3 - a.c1 ^ 3) * h
  obtain ⟨ht1, ht2⟩ : xi * a.c2 ^ 2 - a.c0 * a.c1 = 0 ∧ a.c1 ^ 2 - a.c0 * a.c2 = 0 :=
    eq_zero_of_cube_eq_xi_mul_cube hadj
  have hcubes : a.c1 ^ 3 = xi * a.c2 ^ 3 := by
    linear_combination a.c1 * ht2 - a.c2 * ht1
  obtain ⟨h1, h2⟩ : a.c1 = 0 ∧ a.c2 = 0 := eq_zero_of_cube_eq_xi_mul_cube hcubes
  have h0 : a.c0 = 0 := by
    rw [h1, h2] at h
    exact eq_zero_of_pow_eq_zero (n := 3) (by linear_combination h)
  exact ha (fp6_ext h0 h1 h2)

theorem sMul_sInvTotal {a : Fp6} (ha : a ≠ zero6) : sMul a (sInvTotal a) = one6 := by
  rw [sInvTotal_eq_sScale, sMul_sScale, sMul_adj6]
  exact fp6_ext (qMul_qInvTotal (norm6_ne_zero ha)) (qRing_zero_mul _) (qRing_zero_mul _)

theorem sInvTotal_zero : sInvTotal zero6 = zero6 := by decide +kernel

/-- Fp6 is a field, with the inverse of R243. -/
@[reducible] def fieldFp6 : Field Fp6 :=
  { ringFp6 with
    inv := sInvTotal
    exists_pair_ne := ⟨zero6, one6, by decide +kernel⟩
    mul_inv_cancel := fun _ => sMul_sInvTotal
    inv_zero := sInvTotal_zero
    nnqsmul := _
    nnqsmul_def := fun _ _ => rfl
    qsmul := _
    qsmul_def := fun _ _ => rfl }

/-! The inverse of Fp12 (R272). -/

/-- The norm of a square of Fp6 is a square of Fp2, and the norm of `v` is `ξ`. -/
theorem elemV_not_square (y : Fp6) : sMul y y ≠ elemV := by
  intro h
  have hnorm : norm6 elemV = xi := by decide +kernel
  exact xi_not_square ⟨norm6 y, by rw [← norm6_sMul, h, hnorm]⟩

/-- The value R272 inverts in Fp6: the norm of Fp12 over Fp6. -/
def norm12 (a : Fp12) : Fp6 := sSub (sSqr a.c0) (sMulnr (sSqr a.c1))

theorem norm12_eq (a : Fp12) :
    letI := ringFp6
    norm12 a = a.c0 * a.c0 - elemV * (a.c1 * a.c1) := by
  simp only [norm12, sMulnr_eq, sSqr]; rfl

theorem tInvTotal_eq (a : Fp12) :
    letI := fieldFp6
    tInvTotal a = ⟨a.c0 * (norm12 a)⁻¹, -(a.c1 * (norm12 a)⁻¹)⟩ := rfl

theorem norm12_ne_zero {a : Fp12} (ha : a ≠ zero12) : norm12 a ≠ zero6 := by
  let := fieldFp6
  intro h
  rw [norm12_eq] at h
  have h : a.c0 * a.c0 - elemV * (a.c1 * a.c1) = 0 := h
  have h1 : a.c1 = 0 := by
    by_contra h1
    refine elemV_not_square (a.c0 / a.c1) ?_
    change a.c0 / a.c1 * (a.c0 / a.c1) = elemV
    field_simp
    linear_combination h
  have h0 : a.c0 = 0 := by
    rw [h1] at h
    exact mul_self_eq_zero.mp (by linear_combination h)
  exact ha (fp12_ext h0 h1)

theorem tMul_tInvTotal {a : Fp12} (ha : a ≠ zero12) : tMul a (tInvTotal a) = one12 := by
  let := fieldFp6
  have hinv : norm12 a * (norm12 a)⁻¹ = 1 := mul_inv_cancel₀ (norm12_ne_zero ha)
  rw [tMul_eq, tInvTotal_eq]
  refine fp12_ext ?_ ?_
  · change a.c0 * (a.c0 * (norm12 a)⁻¹) + elemV * (a.c1 * -(a.c1 * (norm12 a)⁻¹)) = 1
    linear_combination hinv - (norm12 a)⁻¹ * norm12_eq a
  · change a.c0 * -(a.c1 * (norm12 a)⁻¹) + a.c1 * (a.c0 * (norm12 a)⁻¹) = 0
    ring

/-! The exceptions and the quotients. -/

theorem sInv_of_ne_zero {a : Fp6} (ha : a ≠ zero6) : sInv a = .ok (sInvTotal a) := if_neg ha

theorem sInv_of_eq_zero {a : Fp6} (ha : a = zero6) : sInv a = .error (fails .noInverse) := if_pos ha

theorem sDiv_of_ne_zero (a : Fp6) {b : Fp6} (hb : b ≠ zero6) : sDiv a b = .ok (sMul a (sInvTotal b)) := by
  rw [sDiv, sInv_of_ne_zero hb, res_ok_bind]

theorem sDiv_of_eq_zero (a : Fp6) {b : Fp6} (hb : b = zero6) : sDiv a b = .error (fails .noInverse) := by
  rw [sDiv, sInv_of_eq_zero hb, res_error_bind]

theorem tInv_of_ne_zero {a : Fp12} (ha : a ≠ zero12) : tInv a = .ok (tInvTotal a) := if_neg ha

theorem tInv_of_eq_zero {a : Fp12} (ha : a = zero12) : tInv a = .error (fails .noInverse) := if_pos ha

theorem tDiv_of_ne_zero (a : Fp12) {b : Fp12} (hb : b ≠ zero12) : tDiv a b = .ok (tMul a (tInvTotal b)) := by
  rw [tDiv, tInv_of_ne_zero hb, res_ok_bind]

theorem tDiv_of_eq_zero (a : Fp12) {b : Fp12} (hb : b = zero12) : tDiv a b = .error (fails .noInverse) := by
  rw [tDiv, tInv_of_eq_zero hb, res_error_bind]

theorem sInvTotal_mul {a : Fp6} (ha : a ≠ zero6) : sMul (sInvTotal a) a = one6 :=
  (ringFp6.mul_comm _ a).trans (sMul_sInvTotal ha)

theorem tInvTotal_mul {a : Fp12} (ha : a ≠ zero12) : tMul (tInvTotal a) a = one12 :=
  (ringFp12.mul_comm _ a).trans (tMul_tInvTotal ha)

theorem quotient6_mul (a : Fp6) {b : Fp6} (hb : b ≠ zero6) : sMul (sMul a (sInvTotal b)) b = a :=
  calc sMul (sMul a (sInvTotal b)) b = sMul a (sMul (sInvTotal b) b) := ringFp6.mul_assoc a _ b
    _ = a := by rw [sInvTotal_mul hb]; exact ringFp6.mul_one a

theorem quotient12_mul (a : Fp12) {b : Fp12} (hb : b ≠ zero12) : tMul (tMul a (tInvTotal b)) b = a :=
  calc tMul (tMul a (tInvTotal b)) b = tMul a (tMul (tInvTotal b) b) := ringFp12.mul_assoc a _ b
    _ = a := by rw [tInvTotal_mul hb]; exact ringFp12.mul_one a

end Sys2Proof.Machine
end

section
/-! PROOFS. The Fp6 and Fp12 instructions (spec/43_fp6.md R245 to R259, spec/44_fp12.md R277 to R291): each meaning writes
one register or raises, and the value is what the functions of the field are. -/

namespace Sys2Proof.Machine

open Sys2Proof

/-! Moves and tests (R245 to R247, R258, R259, R277 to R279, R281, R291). -/

/-- `c1` of a value and of its conjugate are opposite. -/
theorem tConj_c1_add (a : Fp12) : sAdd (tConj a).c1 a.c1 = zero6 := ringFp6.neg_add_cancel a.c1

/-- Settles O32: each is one write, the two tests answer the equality of values, and `s_mulnr` turns the coefficients
with a factor `ξ`. -/
theorem towerMovesAndTests : Obligations.TowerMovesAndTests := by
  refine ⟨fun a b c d n => ⟨rfl, rfl, rfl, rfl, rfl, rfl, rfl, rfl, rfl, rfl⟩, fun s a b c d =>
    ⟨?_, ?_, ?_, ?_, ?_, ?_, ?_, ?_, ?_, ?_, ?_, ?_, ?_⟩⟩
  · exact runs_writeS rfl fun _ hu => hu
  · exact runs_writeS rfl fun _ hu => by rw [hu]; exact ⟨rfl, rfl, rfl⟩
  · exact runs_writeQ rfl fun _ hu => hu
  · exact runs_writeQ rfl fun _ hu => hu
  · exact runs_writeQ rfl fun _ hu => hu
  · exact runs_writeR rfl fun _ hu => answers_boolWord decide_eq_true_iff hu
  · exact runs_writeS rfl fun _ hu => by rw [hu]; exact ⟨qMulnr_eq _, rfl, rfl⟩
  · exact runs_writeT rfl fun _ hu => hu
  · exact runs_writeT rfl fun _ hu => by rw [hu]; exact ⟨rfl, rfl⟩
  · exact runs_writeS rfl fun _ hu => hu
  · exact runs_writeS rfl fun _ hu => hu
  · exact runs_writeR rfl fun _ hu => answers_boolWord decide_eq_true_iff hu
  · exact runs_writeT rfl fun _ hu => by rw [hu]; exact ⟨rfl, tConj_c1_add _⟩

/-! Sums (R250 to R252, R282 to R284). -/

/-- Settles O33: `s_add`, `s_sub` and `s_neg` are `q_add`, `q_sub` and `q_neg` on the three coefficients, and `t_add`,
`t_sub` and `t_neg` those on the two. -/
theorem towerSums : Obligations.TowerSums := by
  refine ⟨fun a b c => ⟨rfl, rfl, rfl, rfl, rfl, rfl⟩, fun s a b c => ⟨?_, ?_, ?_, ?_, ?_, ?_⟩⟩
  · exact runs_writeS rfl fun _ hu => by rw [hu]; exact ⟨rfl, rfl, rfl⟩
  · exact runs_writeS rfl fun _ hu => by rw [hu]; exact ⟨rfl, rfl, rfl⟩
  · exact runs_writeS rfl fun _ hu => by rw [hu]; exact ⟨rfl, rfl, rfl⟩
  · exact runs_writeT rfl fun _ hu => by rw [hu]; exact ⟨⟨rfl, rfl, rfl⟩, rfl, rfl, rfl⟩
  · exact runs_writeT rfl fun _ hu => by rw [hu]; exact ⟨⟨rfl, rfl, rfl⟩, rfl, rfl, rfl⟩
  · exact runs_writeT rfl fun _ hu => by rw [hu]; exact ⟨⟨rfl, rfl, rfl⟩, rfl, rfl, rfl⟩

/-! Products (R248, R249, R253, R254, R285, R286, R290). -/

/-- The three cross sums of R242 are each a product of sums less two products of coefficients. -/
theorem sMul_eq_karatsuba (x y : Fp6) :
    letI := ringFp2
    sMul x y =
      ⟨x.c0 * y.c0 + xi * ((x.c1 + x.c2) * (y.c1 + y.c2) - x.c1 * y.c1 - x.c2 * y.c2),
        (x.c0 + x.c1) * (y.c0 + y.c1) - x.c0 * y.c0 - x.c1 * y.c1 + xi * (x.c2 * y.c2),
        (x.c0 + x.c2) * (y.c0 + y.c2) - x.c0 * y.c0 - x.c2 * y.c2 + x.c1 * y.c1⟩ := by
  let := ringFp2
  rw [sMul_eq]
  refine fp6_ext ?_ ?_ ?_ <;> dsimp only <;> ring

theorem sMul01_eq (x : Fp6) (b0 b1 : Fp2) :
    sMul01 x b0 b1 = ⟨qAdd (qMul x.c0 b0) (qMulnr (qMul x.c2 b1)), qAdd (qMul x.c0 b1) (qMul x.c1 b0),
      qAdd (qMul x.c1 b1) (qMul x.c2 b0)⟩ := by
  let := ringFp2
  rw [sMul01, sMul_eq, qMulnr_eq]
  refine fp6_ext ?_ ?_ ?_
  · change x.c0 * b0 + xi * (x.c1 * 0 + x.c2 * b1) = x.c0 * b0 + xi * (x.c2 * b1)
    ring
  · change x.c0 * b1 + x.c1 * b0 + xi * (x.c2 * 0) = x.c0 * b1 + x.c1 * b0
    ring
  · change x.c0 * 0 + x.c1 * b1 + x.c2 * b0 = x.c1 * b1 + x.c2 * b0
    ring

theorem sMul1_eq (x : Fp6) (b : Fp2) : sMul1 x b = ⟨qMulnr (qMul x.c2 b), qMul x.c0 b, qMul x.c1 b⟩ := by
  change sMul01 x zero2 b = _
  rw [sMul01_eq]
  simp only [qRing_mul_zero, qRing_zero_add, qRing_add_zero]

/-- The cross sum of R271 is a product of sums less the two other products. -/
theorem tMul_eq_karatsuba (x y : Fp12) :
    tMul x y = ⟨sAdd (sMul x.c0 y.c0) (sMulnr (sMul x.c1 y.c1)),
      sSub (sMul (sAdd x.c0 x.c1) (sAdd y.c0 y.c1)) (sAdd (sMul x.c0 y.c0) (sMul x.c1 y.c1))⟩ := by
  let := ringFp6
  refine fp12_ext rfl ?_
  change x.c0 * y.c1 + x.c1 * y.c0 = (x.c0 + x.c1) * (y.c0 + y.c1) - (x.c0 * y.c0 + x.c1 * y.c1)
  ring

/-- The Karatsuba form with a sparse factor: the sum of its two halves has no third coefficient either. -/
theorem tMul014_eq (x : Fp12) (o0 o1 o4 : Fp2) :
    tMul014 x o0 o1 o4 = ⟨sAdd (sMulnr (sMul1 x.c1 o4)) (sMul01 x.c0 o0 o1),
      sSub (sSub (sMul01 (sAdd x.c1 x.c0) o0 (qAdd o1 o4)) (sMul01 x.c0 o0 o1)) (sMul1 x.c1 o4)⟩ := by
  let := ringFp6
  have hsum : (⟨o0, qAdd o1 o4, zero2⟩ : Fp6) = ⟨o0, o1, zero2⟩ + ⟨zero2, o4, zero2⟩ :=
    fp6_ext (qRing_add_zero o0).symm rfl (qRing_add_zero zero2).symm
  rw [tMul014, tMul_eq_karatsuba, sMul01, sMul01, sMul1, hsum]
  generalize (⟨o0, o1, zero2⟩ : Fp6) = y0
  generalize (⟨zero2, o4, zero2⟩ : Fp6) = y1
  refine fp12_ext (add_comm (x.c0 * y0) _) ?_
  change (x.c0 + x.c1) * (y0 + y1) - (x.c0 * y0 + x.c1 * y1) = (x.c1 + x.c0) * (y0 + y1) - x.c0 * y0 - x.c1 * y1
  ring

/-- Settles O34: the product of each level in its Karatsuba form, and the sparse products in their short forms. -/
theorem towerProducts : Obligations.TowerProducts := by
  refine ⟨fun a b c d e => ⟨rfl, rfl, rfl, rfl, rfl, rfl, rfl⟩, fun s a b c d => ⟨?_, ?_, ?_, ?_⟩,
    fun s a b c d e => ⟨?_, ?_, ?_⟩⟩
  · exact runs_writeS rfl fun _ hu => hu.trans (sMul_eq_karatsuba _ _)
  · exact runs_writeS rfl fun _ hu => hu.trans (sMul_eq_karatsuba _ _)
  · exact runs_writeS rfl fun _ hu => hu.trans (sMul1_eq _ _)
  · exact runs_writeS rfl fun _ hu => hu.trans (sMul01_eq _ _ _)
  · exact runs_writeT rfl fun _ hu => hu.trans (tMul_eq_karatsuba _ _)
  · exact runs_writeT rfl fun _ hu => hu.trans (tMul_eq_karatsuba _ _)
  · exact runs_writeT rfl fun _ hu => hu.trans (tMul014_eq _ _ _ _)

/-! Inverses and quotients (R255, R256, R287, R288). -/

section
variable {i : Instr} {s : State}

/-- A meaning that computes a value and writes it to `s[a]`, where the computation answers. -/
theorem runs_writeS_of_ok {r : Res Fp6} {a : RegIdx} {v : Fp6} {post : State → Prop} (hr : r = .ok v)
    (h : exec i s = retire s (r >>= fun v => .ok (writeS s a v))) (hp : ∀ u, readS u a = v → post u) :
    Runs i s { s := [a] } post :=
  runs_writeS (by rw [h, hr, res_ok_bind]) hp

/-- A meaning that computes a value and writes it to `t[a]`, where the computation answers. -/
theorem runs_writeT_of_ok {r : Res Fp12} {a : RegIdx} {v : Fp12} {post : State → Prop} (hr : r = .ok v)
    (h : exec i s = retire s (r >>= fun v => .ok (writeT s a v))) (hp : ∀ u, readT u a = v → post u) :
    Runs i s { t := [a] } post :=
  runs_writeT (by rw [h, hr, res_ok_bind]) hp

/-- A meaning whose computation raises takes the exception. -/
theorem traps_of_error {α : Type} {r : Res α} {k : α → Res State} {c : Cause} (hr : r = .error (fails c))
    (h : exec i s = retire s (r >>= k)) : Traps i s c 0 :=
  traps_of_retire (by rw [h, hr, res_error_bind]; rfl)

end

/-- Settles O35: both levels are fields, and the inverse of each multiplies the divisor to one. -/
theorem towerInversesAndQuotients : Obligations.TowerInversesAndQuotients := by
  refine ⟨fun a b c => ⟨rfl, rfl, rfl, rfl⟩, fun s a b c => ⟨fun hb => ?_, fun hb => ?_, fun hc => ?_, fun hc => ?_,
    fun hb => ?_, fun hb => ?_, fun hc => ?_, fun hc => ?_⟩⟩
  · exact runs_writeS_of_ok (sInv_of_ne_zero hb) rfl fun _ hu => by rw [hu, sInvTotal_mul hb]
  · exact traps_of_error (sInv_of_eq_zero hb) rfl
  · exact runs_writeS_of_ok (sDiv_of_ne_zero _ hc) rfl fun _ hu => by rw [hu, quotient6_mul _ hc]
  · exact traps_of_error (sDiv_of_eq_zero (readS s b) hc) rfl
  · exact runs_writeT_of_ok (tInv_of_ne_zero hb) rfl fun _ hu => by rw [hu, tInvTotal_mul hb]
  · exact traps_of_error (tInv_of_eq_zero hb) rfl
  · exact runs_writeT_of_ok (tDiv_of_ne_zero _ hc) rfl fun _ hu => by rw [hu, quotient12_mul _ hc]
  · exact traps_of_error (tDiv_of_eq_zero (readT s b) hc) rfl

end Sys2Proof.Machine
end

section
/-! PROOFS. The cyclotomic square and exponent (spec/44_fp12.md R275). In the powers of `w` the Frobenius maps `p²` and
`p⁴` multiply the coefficients by powers of a sixth root of unity, so that an element with `x^(p⁴) · x = x^(p²)` satisfies
six quadratic relations; these turn the coefficients of its square into those of `t_cycsqr`. -/

namespace Sys2Proof.Machine

open Sys2Proof

/-! The coefficients over Fp2 of a product, of the maps `p²` and `p⁴`, and of `t_cycsqr`. -/

theorem tMul_coeffs (a b : Fp12) :
    letI := ringFp2
    tMul a b =
      ⟨⟨a.c0.c0 * b.c0.c0 + xi * (a.c0.c1 * b.c0.c2 + a.c0.c2 * b.c0.c1) +
          xi * (a.c1.c0 * b.c1.c2 + a.c1.c1 * b.c1.c1 + a.c1.c2 * b.c1.c0),
        a.c0.c0 * b.c0.c1 + a.c0.c1 * b.c0.c0 + xi * (a.c0.c2 * b.c0.c2) +
          (a.c1.c0 * b.c1.c0 + xi * (a.c1.c1 * b.c1.c2 + a.c1.c2 * b.c1.c1)),
        a.c0.c0 * b.c0.c2 + a.c0.c1 * b.c0.c1 + a.c0.c2 * b.c0.c0 +
          (a.c1.c0 * b.c1.c1 + a.c1.c1 * b.c1.c0 + xi * (a.c1.c2 * b.c1.c2))⟩,
       ⟨a.c0.c0 * b.c1.c0 + xi * (a.c0.c1 * b.c1.c2 + a.c0.c2 * b.c1.c1) +
          (a.c1.c0 * b.c0.c0 + xi * (a.c1.c1 * b.c0.c2 + a.c1.c2 * b.c0.c1)),
        a.c0.c0 * b.c1.c1 + a.c0.c1 * b.c1.c0 + xi * (a.c0.c2 * b.c1.c2) +
          (a.c1.c0 * b.c0.c1 + a.c1.c1 * b.c0.c0 + xi * (a.c1.c2 * b.c0.c2)),
        a.c0.c0 * b.c1.c2 + a.c0.c1 * b.c1.c1 + a.c0.c2 * b.c1.c0 +
          (a.c1.c0 * b.c0.c2 + a.c1.c1 * b.c0.c1 + a.c1.c2 * b.c0.c0)⟩⟩ := by
  simp only [tMul, sMulnr, qMulnr_eq, sMul_eq]
  rfl

/-- The sixth root of unity by which the power `p²` multiplies `w`. -/
def zeta6 : Fp2 := g12 2

theorem zeta6_sq :
    letI := ringFp2
    zeta6 ^ 2 = zeta6 - 1 := by
  let := ringFp2
  rw [pow_two]
  change qMul zeta6 zeta6 = qSub zeta6 one2
  decide +kernel

theorem g12_four :
    letI := ringFp2
    g12 4 = zeta6 - 1 := by
  change g12 4 = qSub zeta6 one2
  decide +kernel

theorem qFrob_of_even (a : Fp2) {k : Nat} (hk : 2 ∣ k) : qFrob a k = a := by
  rw [← qFrob_mod a dvd_rfl, Nat.mod_eq_zero_of_dvd hk, qFrob_zero]

/-- An even power of `p` fixes the coefficients and multiplies `w` by its entry of `G12`. -/
theorem tFrob_of_even (a : Fp12) {k : Nat} (hk : 2 ∣ k) :
    letI := ringFp2
    let y := g12 (k % 12)
    tFrob a k = ⟨⟨a.c0.c0, a.c0.c1 * y ^ 2, a.c0.c2 * y ^ 4⟩,
      ⟨a.c1.c0 * y, a.c1.c1 * y ^ 2 * y, a.c1.c2 * y ^ 4 * y⟩⟩ := by
  rw [tFrob, sFrob_mod, sFrob_mod]
  simp only [qFrob_of_even _ hk]
  rfl

theorem tFrob_two (a : Fp12) :
    letI := ringFp2
    tFrob a 2 = ⟨⟨a.c0.c0, (zeta6 - 1) * a.c0.c1, -zeta6 * a.c0.c2⟩,
      ⟨zeta6 * a.c1.c0, -a.c1.c1, (1 - zeta6) * a.c1.c2⟩⟩ := by
  let := ringFp2
  have hz := zeta6_sq
  rw [tFrob_of_even a (dvd_refl 2), show g12 (2 % 12) = zeta6 from rfl]
  refine fp12_ext (fp6_ext rfl ?_ ?_) (fp6_ext ?_ ?_ ?_) <;> dsimp only
  · linear_combination a.c0.c1 * hz
  · linear_combination a.c0.c2 * (zeta6 ^ 2 + zeta6) * hz
  · ring
  · linear_combination a.c1.c1 * (zeta6 + 1) * hz
  · linear_combination a.c1.c2 * (zeta6 ^ 3 + zeta6 ^ 2 - 1) * hz

theorem tFrob_four (a : Fp12) :
    letI := ringFp2
    tFrob a 4 = ⟨⟨a.c0.c0, -zeta6 * a.c0.c1, (zeta6 - 1) * a.c0.c2⟩,
      ⟨(zeta6 - 1) * a.c1.c0, a.c1.c1, -zeta6 * a.c1.c2⟩⟩ := by
  let := ringFp2
  have hz := zeta6_sq
  have hcube : zeta6 ^ 3 = -1 := by linear_combination (zeta6 + 1) * hz
  have h2 : (zeta6 - 1) ^ 2 = -zeta6 := by linear_combination hz
  have h3 : (zeta6 - 1) ^ 3 = 1 := by linear_combination (zeta6 - 2) * hz
  rw [tFrob_of_even a (by decide), show g12 (4 % 12) = zeta6 - 1 from g12_four]
  refine fp12_ext (fp6_ext rfl ?_ ?_) (fp6_ext ?_ ?_ ?_) <;> dsimp only
  · linear_combination a.c0.c1 * h2
  · linear_combination a.c0.c2 * (zeta6 - 1) * h3
  · ring
  · linear_combination a.c1.c1 * h3
  · linear_combination a.c1.c2 * (zeta6 - 1) ^ 2 * h3 + a.c1.c2 * h2

theorem qMulf_toFp (a : Fp2) (n : Nat) :
    letI := ringFp2
    qMulf a (toFp n) = n * a := by
  let := ringFp2
  rw [natCast_fp2]
  change _ = qMul (mkFp2 n 0) a
  exact fp2_toZ_ext (by simp [mul_comm]) (by simp [mul_comm])

theorem fp4sq_eq (x y : Fp2) :
    letI := ringFp2
    fp4sq x y = (xi * (y * y) + x * x, 2 * (x * y)) := by
  let := ringFp2
  rw [fp4sq, qMulnr_eq]
  refine Prod.ext rfl ?_
  change (x + y) * (x + y) - x * x - y * y = 2 * (x * y)
  ring

theorem cycMinus_eq (t c : Fp2) :
    letI := ringFp2
    cycMinus t c = 3 * t - 2 * c := by
  let := ringFp2
  change (t - c) + (t - c) + t = 3 * t - 2 * c
  ring

theorem cycPlus_eq (t c : Fp2) :
    letI := ringFp2
    cycPlus t c = 3 * t + 2 * c := by
  let := ringFp2
  change (t + c) + (t + c) + t = 3 * t + 2 * c
  ring

theorem tCycsqr_coeffs (a : Fp12) :
    letI := ringFp2
    tCycsqr a =
      ⟨⟨3 * (xi * (a.c1.c1 * a.c1.c1) + a.c0.c0 * a.c0.c0) - 2 * a.c0.c0,
        3 * (xi * (a.c0.c2 * a.c0.c2) + a.c1.c0 * a.c1.c0) - 2 * a.c0.c1,
        3 * (xi * (a.c1.c2 * a.c1.c2) + a.c0.c1 * a.c0.c1) - 2 * a.c0.c2⟩,
       ⟨3 * (xi * (2 * (a.c0.c1 * a.c1.c2))) + 2 * a.c1.c0,
        3 * (2 * (a.c0.c0 * a.c1.c1)) + 2 * a.c1.c1,
        3 * (2 * (a.c1.c0 * a.c0.c2)) + 2 * a.c1.c2⟩⟩ := by
  simp only [tCycsqr, fp4sq_eq, qMulnr_eq, cycMinus_eq, cycPlus_eq]
  rfl

/-! The square on the cyclotomic subgroup. -/

/-- The cyclotomic subgroup of R275. -/
def IsCyclotomic (a : Fp12) : Prop := tPow a (fieldP ^ 4 - fieldP ^ 2 + 1) = one12

theorem tPow_add (a : Fp12) (m n : Nat) : tPow a (m + n) = tMul (tPow a m) (tPow a n) := by
  let := ringFp12
  simp only [tPow_eq_pow]
  exact pow_add a m n

theorem tPow_mul (a : Fp12) (m n : Nat) : tPow a (m * n) = tPow (tPow a m) n := by
  let := ringFp12
  simp only [tPow_eq_pow]
  exact pow_mul a m n

theorem tPow_zero (a : Fp12) : tPow a 0 = one12 := rfl

theorem tPow_one (a : Fp12) : tPow a 1 = a := ringFp12.one_mul a

theorem tPow_one12 (n : Nat) : tPow one12 n = one12 := by
  let := ringFp12
  rw [tPow_eq_pow]
  exact one_pow n

theorem fieldP_sq_le : fieldP ^ 2 ≤ fieldP ^ 4 := Nat.pow_le_pow_right fieldP_pos (by decide)

/-- On the cyclotomic subgroup `x^(p⁴) · x = x^(p²)`. -/
theorem IsCyclotomic.tMul_tFrob {a : Fp12} (h : IsCyclotomic a) : tMul (tFrob a 4) a = tFrob a 2 := by
  have hle := fieldP_sq_le
  have hexp : fieldP ^ 4 + 1 = fieldP ^ 4 - fieldP ^ 2 + 1 + fieldP ^ 2 := by omega
  calc tMul (tFrob a 4) a = tPow a (fieldP ^ 4 + 1) := by rw [tPow_add, tPow_fieldP_pow, tPow_one]
    _ = tPow a (fieldP ^ 4 - fieldP ^ 2 + 1 + fieldP ^ 2) := by rw [← hexp]
    _ = tFrob a 2 := by rw [tPow_add, h, tPow_fieldP_pow]; exact ringFp12.one_mul _

/-- The six relations between the coefficients of a cyclotomic element, one for each power of `w`. -/
theorem IsCyclotomic.relations {x0 x1 x2 x3 x4 x5 : Fp2} (h : IsCyclotomic ⟨⟨x0, x2, x4⟩, ⟨x1, x3, x5⟩⟩) :
    letI := ringFp2
    x0 = x0 * x0 + xi * (x3 * x3) - xi * (x1 * x5 + x2 * x4) ∧
    x1 = x0 * x1 + xi * (x3 * x4) - 2 * (xi * (x2 * x5)) ∧
    x2 = x1 * x1 + xi * (x4 * x4) - (x0 * x2 + xi * (x3 * x5)) ∧
    x3 = x1 * x2 + xi * (x4 * x5) - 2 * (x0 * x3) ∧
    x4 = x2 * x2 + xi * (x5 * x5) - (x0 * x4 + x1 * x3) ∧
    x5 = x0 * x5 + x2 * x3 - 2 * (x1 * x4) := by
  let := ringFp2
  have hz := zeta6_sq
  have hrel := h.tMul_tFrob
  rw [tFrob_two, tFrob_four, tMul_coeffs] at hrel
  simp only [Fp12.mk.injEq, Fp6.mk.injEq] at hrel
  obtain ⟨⟨h0, h2, h4⟩, h1, h3, h5⟩ := hrel
  refine ⟨?_, ?_, ?_, ?_, ?_, ?_⟩
  · linear_combination -h0
  · linear_combination (zeta6 - 1) * h1 + (x1 - x0 * x1 - xi * (x3 * x4) + 2 * (xi * (x2 * x5))) * hz
  · linear_combination zeta6 * h2 + (x2 - x1 * x1 - xi * (x4 * x4) + x0 * x2 + xi * (x3 * x5)) * hz
  · linear_combination h3
  · linear_combination (1 - zeta6) * h4 + (x4 - x2 * x2 - xi * (x5 * x5) + x0 * x4 + x1 * x3) * hz
  · linear_combination -zeta6 * h5 + (x5 - x0 * x5 - x2 * x3 + 2 * (x1 * x4)) * hz

/-- `t_cycsqr` is the square on the cyclotomic subgroup. -/
theorem IsCyclotomic.tCycsqr_eq {a : Fp12} (h : IsCyclotomic a) : tCycsqr a = tMul a a := by
  let := ringFp2
  obtain ⟨⟨x0, x2, x4⟩, ⟨x1, x3, x5⟩⟩ := a
  obtain ⟨h0, h1, h2, h3, h4, h5⟩ := h.relations
  rw [tCycsqr_coeffs, tMul_coeffs]
  refine fp12_ext (fp6_ext ?_ ?_ ?_) (fp6_ext ?_ ?_ ?_) <;> dsimp only
  · linear_combination -2 * h0
  · linear_combination -2 * h2
  · linear_combination -2 * h4
  · linear_combination 2 * h1
  · linear_combination 2 * h3
  · linear_combination 2 * h5

/-! The exponent. -/

/-- The loop of R275 as a recursion on the values of `z`. -/
theorem cycLoop_eq_of_recursion {a : Fp12} {n : Nat} {z : Nat → Fp12}
    (hz : ∀ i < 256, z i = if n.testBit i then tMul (tCycsqr (z (i + 1))) a else tCycsqr (z (i + 1))) (i : Nat)
    (hi : i ≤ 256) : cycLoop a n i (z i) = z 0 := by
  induction i with
  | zero => rfl
  | succ i ih => rw [cycLoop, ← hz i hi, ih (Nat.le_of_succ_le hi)]

/-- A power of a cyclotomic element is cyclotomic. -/
theorem isCyclotomic_tPow {a : Fp12} (h : IsCyclotomic a) (n : Nat) : IsCyclotomic (tPow a n) := by
  rw [IsCyclotomic, ← tPow_mul, Nat.mul_comm, tPow_mul, h, tPow_one12]

theorem IsCyclotomic.tCycsqr_tPow {a : Fp12} (h : IsCyclotomic a) (n : Nat) :
    tCycsqr (tPow a n) = tPow a (2 * n) := by
  rw [(isCyclotomic_tPow h n).tCycsqr_eq, Nat.two_mul, tPow_add]

/-- After the upper bits have given the power `m`, the loop over the `i` lower bits gives `m * 2^i + n mod 2^i`. -/
theorem IsCyclotomic.cycLoop_tPow {a : Fp12} (h : IsCyclotomic a) (n i m : Nat) :
    cycLoop a n i (tPow a m) = tPow a (m * 2 ^ i + n % 2 ^ i) := by
  induction i generalizing m with
  | zero => rw [cycLoop, pow_zero, Nat.mul_one, Nat.mod_one, Nat.add_zero]
  | succ i ih =>
    have hstep : (if n.testBit i then tMul (tCycsqr (tPow a m)) a else tCycsqr (tPow a m)) =
        tPow a (2 * m + (n.testBit i).toNat) := by
      rw [h.tCycsqr_tPow]
      cases n.testBit i with
      | false => rfl
      | true => rw [Bool.toNat_true, tPow_add, tPow_one]; rfl
    rw [cycLoop, hstep, ih, Nat.mod_pow_succ, ← Nat.toNat_testBit]
    refine congrArg (tPow a) ?_
    ring

/-- On the cyclotomic subgroup `t_cycexp` is the power. -/
theorem IsCyclotomic.tCycexp_eq {a : Fp12} (h : IsCyclotomic a) {n : Nat} (hn : n < 2 ^ 256) :
    tCycexp a n = tPow a n := by
  rw [tCycexp, ← tPow_zero a, h.cycLoop_tPow, Nat.zero_mul, Nat.zero_add, Nat.mod_eq_of_lt hn]

/-- Settles O37: the relations of the cyclotomic subgroup turn the coefficients of `t_cycsqr` into those of the square, and
the loop is the recursion of R275. -/
theorem cyclotomicOperations : Obligations.CyclotomicOperations := by
  refine ⟨fun a b c => ⟨rfl, rfl⟩, fun s a b c => ⟨?_, ?_⟩⟩
  · refine runs_writeT rfl fun u hu => ?_
    have hsq (h : repMul tMul one12 (readT s b) (fieldP ^ 4 - fieldP ^ 2 + 1) = one12) :
        readT u a = tMul (readT s b) (readT s b) :=
      hu.trans (IsCyclotomic.tCycsqr_eq ((tPow_eq_repMul _ _).trans h))
    rw [tCycsqr_coeffs] at hu
    simp only [hu, qMulf_toFp, Nat.cast_ofNat]
    exact ⟨rfl, rfl, rfl, rfl, rfl, rfl, fun h => hu.symm.trans (hsq h)⟩
  · refine runs_writeT rfl fun u hu z htop hz => ?_
    rw [hu, tCycexp, ← htop]
    exact cycLoop_eq_of_recursion hz 256 le_rfl

end Sys2Proof.Machine
end

section
/-! PROOFS. The final exponentiation (spec/44_fp12.md R276). The easy part lands in the cyclotomic subgroup, where
conjugation inverts and every step of the chain is a power; the exponent of the chain times `r` is three times
`p⁴ - p² + 1`, by the parametrisation of `p` and `r` in `x`. -/

namespace Sys2Proof.Machine

open Sys2Proof

/-! Integer powers of Fp12. -/

theorem tInvTotal_zero : tInvTotal zero12 = zero12 := by decide +kernel

/-- Fp12 is a field, with the inverse of R272. -/
@[reducible] def fieldFp12 : Field Fp12 :=
  { ringFp12 with
    inv := tInvTotal
    exists_pair_ne := ⟨zero12, one12, by decide +kernel⟩
    mul_inv_cancel := fun _ => tMul_tInvTotal
    inv_zero := tInvTotal_zero
    nnqsmul := _
    nnqsmul_def := fun _ _ => rfl
    qsmul := _
    qsmul_def := fun _ _ => rfl }

/-- The power with an integer exponent. -/
def tZpow (a : Fp12) (e : ℤ) : Fp12 :=
  letI := fieldFp12
  a ^ e

theorem tZpow_natCast (a : Fp12) (n : Nat) : tZpow a n = tPow a n := by
  let := fieldFp12
  rw [tPow_eq_pow]
  exact zpow_natCast a n

theorem tZpow_one (a : Fp12) : tZpow a 1 = a := (tZpow_natCast a 1).trans (tPow_one a)

theorem tZpow_neg (a : Fp12) (e : ℤ) : tZpow a (-e) = tInvTotal (tZpow a e) := by
  let := fieldFp12
  exact zpow_neg a e

theorem tZpow_add {a : Fp12} (ha : a ≠ zero12) (e f : ℤ) : tZpow a (e + f) = tMul (tZpow a e) (tZpow a f) := by
  let := fieldFp12
  exact zpow_add₀ ha e f

theorem tZpow_mul (a : Fp12) (e f : ℤ) : tZpow a (e * f) = tZpow (tZpow a e) f := by
  let := fieldFp12
  exact zpow_mul a e f

theorem tPow_tZpow (a : Fp12) (e : ℤ) (n : Nat) : tPow (tZpow a e) n = tZpow a (n * e) := by
  rw [← tZpow_natCast, ← tZpow_mul, mul_comm]

theorem tFrob_tZpow (a : Fp12) (e : ℤ) (k : Nat) : tFrob (tZpow a e) k = tZpow a (fieldP ^ k * e) := by
  rw [← tPow_fieldP_pow, tPow_tZpow, Nat.cast_pow]

/-! The cyclotomic subgroup. -/

theorem tPow_zero12_succ (n : Nat) : tPow zero12 (n + 1) = zero12 := by
  rw [tPow_add, tPow_one]
  exact ringFp12.mul_zero _

theorem ne_zero_of_tPow_succ {a : Fp12} (n : Nat) (h : tPow a (n + 1) = one12) : a ≠ zero12 := by
  rintro rfl
  rw [tPow_zero12_succ] at h
  exact absurd h (by decide +kernel)

theorem IsCyclotomic.ne_zero {a : Fp12} (h : IsCyclotomic a) : a ≠ zero12 :=
  ne_zero_of_tPow_succ (fieldP ^ 4 - fieldP ^ 2) h

theorem isCyclotomic_tZpow {a : Fp12} (h : IsCyclotomic a) (e : ℤ) : IsCyclotomic (tZpow a e) := by
  let := fieldFp12
  rw [IsCyclotomic, tPow_tZpow, tZpow_mul, tZpow_natCast, h]
  exact one_zpow e

theorem g12_six :
    letI := ringFp2
    g12 6 = -1 := by
  change g12 6 = qNeg one2
  decide +kernel

/-- `t_conj` is the power `p⁶`. -/
theorem tFrob_six (a : Fp12) : tFrob a 6 = tConj a := by
  let := ringFp2
  have h2 : (-1 : Fp2) ^ 2 = 1 := neg_one_sq
  have h4 : (-1 : Fp2) ^ 4 = 1 := Even.neg_one_pow (by decide)
  rw [tFrob_of_even a (by decide), show g12 (6 % 12) = -1 from g12_six]
  simp only [h2, h4, mul_one, mul_neg_one]
  rfl

/-- The order of the cyclotomic subgroup divides `p⁶ + 1`. -/
theorem fieldP_pow_six_add_one : fieldP ^ 6 + 1 = (fieldP ^ 4 - fieldP ^ 2 + 1) * (fieldP ^ 2 + 1) := by
  zify [fieldP_sq_le]
  ring

theorem IsCyclotomic.tConj_tMul {a : Fp12} (h : IsCyclotomic a) : tMul (tConj a) a = one12 :=
  calc tMul (tConj a) a = tPow a (fieldP ^ 6 + 1) := by rw [tPow_add, tPow_one, tPow_fieldP_pow, tFrob_six]
    _ = one12 := by rw [fieldP_pow_six_add_one, tPow_mul, h, tPow_one12]

/-- Conjugation inverts. -/
theorem IsCyclotomic.tConj_eq {a : Fp12} (h : IsCyclotomic a) : tConj a = tInvTotal a :=
  calc tConj a = tMul (tConj a) one12 := (ringFp12.mul_one _).symm
    _ = tMul (tConj a) (tMul a (tInvTotal a)) := by rw [tMul_tInvTotal h.ne_zero]
    _ = tMul (tMul (tConj a) a) (tInvTotal a) := (ringFp12.mul_assoc _ _ _).symm
    _ = tInvTotal a := by rw [h.tConj_tMul]; exact ringFp12.one_mul _

section
variable {a : Fp12} (h : IsCyclotomic a) (e f : ℤ)
include h

theorem IsCyclotomic.tMul_tZpow : tMul (tZpow a e) (tZpow a f) = tZpow a (e + f) :=
  (tZpow_add h.ne_zero e f).symm

theorem IsCyclotomic.tCycsqr_tZpow : tCycsqr (tZpow a e) = tZpow a (2 * e) := by
  rw [(isCyclotomic_tZpow h e).tCycsqr_eq, h.tMul_tZpow, two_mul]

theorem IsCyclotomic.tConj_tZpow : tConj (tZpow a e) = tZpow a (-e) := by
  rw [(isCyclotomic_tZpow h e).tConj_eq, tZpow_neg]

theorem IsCyclotomic.cycX_tZpow : cycX (tZpow a e) = tZpow a (-xAbs * e) := by
  rw [cycX, (isCyclotomic_tZpow h e).tCycexp_eq (by decide), tPow_tZpow, h.tConj_tZpow, neg_mul]

end

/-! The exponents. -/

/-- The exponent of the easy part (R276). -/
def easyExponent : ℤ := ((fieldP : ℤ) ^ 6 - 1) * (fieldP ^ 2 + 1)

/-- The exponent of the hard part, in the signed parameter `x = -X_ABS` of R10. -/
def hardExponent : ℤ :=
  let x : ℤ := -xAbs
  let p : ℤ := fieldP
  (x - 1) ^ 2 * (x + p) * (x ^ 2 + p ^ 2 - 1) + 3

/-- The chain of R276 from `t1` on is one power. -/
theorem IsCyclotomic.finalHard_eq {a : Fp12} (h : IsCyclotomic a) : finalHard a = tZpow a hardExponent := by
  rw [← tZpow_one a]
  simp only [finalHard, h.tMul_tZpow, h.tCycsqr_tZpow, h.tConj_tZpow, h.cycX_tZpow, tFrob_tZpow, ← tZpow_mul]
  refine congrArg (tZpow a) ?_
  rw [hardExponent]
  ring

/-- `3 (p - x) = (x - 1)² r` and `r = x⁴ - x² + 1` make the exponent of the hard part `3 (p⁴ - p² + 1) / r`. -/
theorem hardExponent_mul_orderR : hardExponent * orderR = 3 * ((fieldP : ℤ) ^ 4 - fieldP ^ 2 + 1) := by
  have hle : xAbs ^ 2 ≤ xAbs ^ 4 := Nat.pow_le_pow_right (by decide) (by decide)
  have hr : (orderR : ℤ) = xAbs ^ 4 - xAbs ^ 2 + 1 := by
    rw [orderR_eq, Nat.cast_succ, Nat.cast_sub hle, Nat.cast_pow, Nat.cast_pow]
  have hp : 3 * ((fieldP : ℤ) + xAbs) = (xAbs + 1) ^ 2 * orderR := by exact_mod_cast three_mul_fieldP_add_xAbs
  rw [hardExponent]
  linear_combination 3 * hr - (fieldP - xAbs : ℤ) * (xAbs ^ 2 + fieldP ^ 2 - 1) * hp

/-- The easy part and the hard part together: `(p⁶ - 1)(p² + 1)(p⁴ - p² + 1) = p¹² - 1`. -/
theorem easyExponent_mul_hardExponent :
    easyExponent * hardExponent = (3 * ((fieldP ^ 12 - 1) / orderR) : Nat) := by
  have hr : (orderR : ℤ) ≠ 0 := by decide
  have hdvd : (orderR : ℤ) * ((fieldP ^ 12 - 1) / orderR : Nat) = fieldP ^ 12 - 1 := by
    have h : orderR * ((fieldP ^ 12 - 1) / orderR) = fieldP ^ 12 - 1 := by decide +kernel
    rw [← Nat.cast_mul, h, Nat.cast_pred (Nat.pow_pos fieldP_pos), Nat.cast_pow]
  refine mul_right_cancel₀ hr ?_
  rw [Nat.cast_mul, easyExponent]
  linear_combination ((fieldP : ℤ) ^ 6 - 1) * (fieldP ^ 2 + 1) * hardExponent_mul_orderR - 3 * hdvd

/-! The easy part. -/

/-- The order of a non-zero element divides `p¹² - 1`. -/
theorem tZpow_order {a : Fp12} (ha : a ≠ zero12) : tZpow a ((fieldP : ℤ) ^ 12 - 1) = one12 := by
  have hfrob : tFrob a 12 = tFrob a 0 := rfl
  rw [← tPow_fieldP_pow, ← tPow_fieldP_pow, pow_zero, tPow_one, ← tZpow_natCast, Nat.cast_pow] at hfrob
  rw [sub_eq_add_neg, tZpow_add ha, hfrob, tZpow_neg, tZpow_one, tMul_tInvTotal ha]

theorem isCyclotomic_easy {a : Fp12} (ha : a ≠ zero12) : IsCyclotomic (tZpow a easyExponent) := by
  have hexp : ((fieldP ^ 4 - fieldP ^ 2 + 1 : Nat) : ℤ) * easyExponent = fieldP ^ 12 - 1 := by
    rw [easyExponent]
    push_cast [fieldP_sq_le]
    ring
  rw [IsCyclotomic, tPow_tZpow, hexp, tZpow_order ha]

theorem tFinalexp_of_ne_zero {a : Fp12} (ha : a ≠ zero12) :
    tFinalexp a = .ok (tPow a (3 * ((fieldP ^ 12 - 1) / orderR))) := by
  have hfirst : tMul (tFrob a 6) (tInvTotal a) = tZpow a (fieldP ^ 6 - 1) := by
    rw [sub_eq_add_neg, tZpow_add ha, tZpow_neg, tZpow_one, ← tPow_fieldP_pow, ← tZpow_natCast, Nat.cast_pow]
  have heasy : tMul (tFrob (tZpow a (fieldP ^ 6 - 1)) 2) (tZpow a (fieldP ^ 6 - 1)) = tZpow a easyExponent := by
    rw [tFrob_tZpow, ← tZpow_add ha, easyExponent]
    refine congrArg (tZpow a) ?_
    ring
  have hhard : finalHard (tZpow a easyExponent) = tPow a (3 * ((fieldP ^ 12 - 1) / orderR)) := by
    rw [(isCyclotomic_easy ha).finalHard_eq, ← tZpow_mul, easyExponent_mul_hardExponent, tZpow_natCast]
  rw [tFinalexp, tDiv_of_ne_zero _ ha, res_ok_bind, hfirst, heasy]
  exact congrArg Except.ok hhard

theorem tFinalexp_of_eq_zero {a : Fp12} (ha : a = zero12) : tFinalexp a = .error (fails .noInverse) := by
  rw [tFinalexp, tDiv_of_eq_zero _ ha, res_error_bind]

/-- Settles O38: the easy part is a power that lands in the cyclotomic subgroup, the chain of the hard part is a power
there, and the product of the two exponents is `3 (p¹² - 1) / r`. -/
theorem finalExponentiationIsThePower : Obligations.FinalExponentiationIsThePower := by
  refine ⟨fun a b => rfl, fun s a b => ⟨fun hb => ?_, fun hb => ?_⟩⟩
  · exact runs_writeT_of_ok (tFinalexp_of_ne_zero hb) rfl fun _ hu => by rw [hu, tPow_eq_repMul]
  · exact traps_of_error (tFinalexp_of_eq_zero hb) rfl

end Sys2Proof.Machine
end

section
/-! PROOFS. The group layer (spec/45_g1.md R300 to R310; spec/46_g2.md R351 to R355): the sums meet the defining
equations of the chord and tangent over any field operations that divide, the multiple is the value of the loop of R305,
and `ψ` twice is `ψ²`. -/

namespace Sys2Proof.Machine

open Sys2Proof

/-! Division in the two fields of the group layer. -/

/-- What the group layer needs of its field: a quotient multiplies back, and neither the double of a non-zero element nor
the difference of two different ones is zero. -/
structure Divides {F : Type} (ops : FieldOps F) : Prop where
  quotient_mul : ∀ a b, b ≠ ops.zero → ops.mul (ops.mul a (ops.inv b)) b = a
  two_ne_zero : ∀ y, y ≠ ops.zero → ops.scale 2 y ≠ ops.zero
  sub_ne_zero : ∀ x y, x ≠ y → ops.sub y x ≠ ops.zero

theorem val_ne_zero_of_ne {a : Fp} (h : a ≠ toFp 0) : a.val ≠ 0 :=
  fun h0 => h (toZ_inj (by rw [toZ_eq_zero.mpr h0, toZ_toFp, Nat.cast_zero]))

theorem fmul_finvTotal_fmul (a : Fp) {b : Fp} (hb : b.val ≠ 0) : fmul (fmul a (finvTotal b)) b = a :=
  toZ_inj (by rw [toZ_fmul, toZ_fmul, mul_assoc, toZ_finvTotal_mul hb, mul_one])

theorem two_ne_zero_fp : ((2 : Nat) : ZMod fieldP) ≠ 0 := by
  rw [← toZ_toFp, Ne, toZ_eq_zero]
  decide +kernel

theorem opsFp_zero : opsFp.zero = toFp 0 := rfl
theorem opsFp_scale (n : Nat) (a : Fp) : opsFp.scale n a = fmul (toFp n) a := rfl
theorem opsFp_sub (a b : Fp) : opsFp.sub a b = fsub a b := rfl
theorem opsFp_quotient (a b : Fp) : opsFp.mul a (opsFp.inv b) = fmul a (finvTotal b) := rfl
theorem opsFp_mul (a b : Fp) : opsFp.mul a b = fmul a b := rfl

theorem divides_opsFp : Divides opsFp where
  quotient_mul a b hb := by
    rw [opsFp_quotient, opsFp_mul]
    exact fmul_finvTotal_fmul a (val_ne_zero_of_ne hb)
  two_ne_zero y hy h := by
    have : Fact (Nat.Prime fieldP) := ⟨fieldP_prime⟩
    have hz := congrArg toZ h
    rw [opsFp_scale, opsFp_zero, toZ_fmul, toZ_toFp, toZ_toFp, Nat.cast_zero] at hz
    exact val_ne_zero_of_ne hy (toZ_eq_zero.mp ((mul_eq_zero.mp hz).resolve_left two_ne_zero_fp))
  sub_ne_zero x y hxy h := by
    have hz := congrArg toZ h
    rw [opsFp_sub, opsFp_zero, toZ_fsub, toZ_toFp, Nat.cast_zero, sub_eq_zero] at hz
    exact hxy (toZ_inj hz.symm)

theorem qMulf_two (y : Fp2) : qMulf y (toFp 2) = qAdd y y := by
  refine fp2_toZ_ext ?_ ?_ <;> simp <;> ring

theorem divides_opsFp2 : Divides opsFp2 where
  quotient_mul a _ hb := quotient2_mul a hb
  two_ne_zero y hy h := by
    let := ringFp2
    have hsum : y + y = 0 := (qMulf_two y).symm.trans h
    exact ne_qNeg hy (eq_neg_of_add_eq_zero_left hsum)
  sub_ne_zero x y hxy h := by
    let := ringFp2
    have hdiff : y - x = 0 := h
    exact hxy (sub_eq_zero.mp hdiff).symm

/-! Sums (R302 to R304). -/

theorem ptNeg_negatesTo {F : Type} {ops : FieldOps F} (p : Point F) : NegatesTo ops p (ptNeg ops p) :=
  (negatesTo_iff ops p _).mpr rfl

section
variable {F : Type} [DecidableEq F] {ops : FieldOps F}

theorem ptDbl_doublesTo (h : Divides ops) (p : Point F) : DoublesTo ops p (ptDbl ops p) := by
  cases p with
  | O => rfl
  | aff x y =>
    exact ⟨fun hy => if_pos hy,
      fun hy => ⟨_, _, _, if_neg hy, h.quotient_mul _ _ (h.two_ne_zero y hy), rfl, rfl⟩⟩

theorem ptAdd_addsTo (h : Divides ops) (p q : Point F) : AddsTo ops p q (ptAdd ops p q) := by
  cases p with
  | O => rfl
  | aff x1 y1 =>
    cases q with
    | O => rfl
    | aff x2 y2 =>
      refine ⟨fun hx hy => ?_, fun hx hy => ?_, fun hx => ?_⟩
      · rw [ptAdd, if_pos hx, if_pos hy]
        exact ptDbl_doublesTo h _
      · rw [ptAdd, if_pos hx, if_neg hy]
      · exact ⟨_, _, _, if_neg hx, h.quotient_mul _ _ (h.sub_ne_zero x1 x2 hx), rfl, rfl⟩

/-! Multiples (R305). -/

/-- The bounded loop reaches the end of the loop of R305 when the scalar has no more bits than it has passes. -/
theorem mulLoop_eq_loop {loop : Point F → Point F → Nat → Point F} (hl : IsMulLoop ops loop) (fuel n : Nat)
    (acc d : Point F) (hn : n < 2 ^ fuel) : mulLoop ops fuel n acc d = loop acc d n := by
  obtain ⟨hzero, hstep⟩ := hl
  induction fuel generalizing n acc d with
  | zero =>
    obtain rfl : n = 0 := by omega
    exact (hzero acc d).symm
  | succ fuel ih =>
    by_cases h0 : n = 0
    · subst h0
      rw [mulLoop, if_pos rfl, hzero]
    · rw [mulLoop, if_neg h0, ih _ _ _ (by omega), hstep acc d n (by omega)]

theorem ptMul_eq_loop {loop : Point F → Point F → Nat → Point F} (hl : IsMulLoop ops loop) (a : Point F) (n : Nat) :
    ptMul ops a n = loop .O a n :=
  mulLoop_eq_loop hl _ _ _ _ Nat.lt_log2_self

end

/-! Endomorphisms (R308, R352, R353). -/

theorem phi_aff (x y : Fp) : phi (.aff x y) = .aff (fmul beta x) y := rfl

theorem qFrob_one (a : Fp2) : qFrob a 1 = qConj a := by rw [qFrob_succ, qFrob_zero]

/-- The coefficients of `ψ` applied twice: `PSI_CX` has the norm `PSI2_C`, and `PSI_CY` the norm -1. -/
theorem psi_coefficients_norm :
    qMul (qConj psiCX) psiCX = ⟨psi2C, toFp 0⟩ ∧ qMul (qConj psiCY) psiCY = qNeg one2 := by
  decide +kernel

/-- The conjugate of a product with a coefficient, times the coefficient: the operand times the coefficient's norm. -/
theorem qConj_mul_mul (x c : Fp2) : qMul (qConj (qMul (qConj x) c)) c = qMul x (qMul (qConj c) c) := by
  refine fp2_toZ_ext ?_ ?_ <;> simp <;> ring

theorem psi_psi (a : Point Fp2) : psi (psi a) = psi2 a := by
  cases a with
  | O => rfl
  | aff x y =>
    obtain ⟨hx, hy⟩ := psi_coefficients_norm
    have hcx : qMul x ⟨psi2C, toFp 0⟩ = qMulf x psi2C := by
      refine fp2_toZ_ext ?_ ?_ <;> simp
    have hcy : qMul y (qNeg one2) = qNeg y := by
      refine fp2_toZ_ext ?_ ?_ <;> simp
    rw [psi, psi, psi2, qConj_mul_mul, qConj_mul_mul, hx, hy, hcx, hcy]

end Sys2Proof.Machine
end

section
/-! PROOFS. The G1 and G2 instructions (spec/45_g1.md R316 to R334, spec/46_g2.md R358 to R377): each meaning writes one
register but for the coordinates, which take two, and the value is what the functions of the group layer are. -/

namespace Sys2Proof.Machine

open Sys2Proof

/-! Moves, packs and coordinates (R316 to R320, R358 to R362). -/

theorem toAffine_opsFp (x y z : Fp) :
    toAffine opsFp x y z = .aff (fmul x (finvTotal z)) (fmul y (finvTotal z)) := rfl

theorem frame_writeF_writeF (s : State) (a b : RegIdx) (x y : Fp) :
    Frame { f := [a, b] } s (writeF (writeF s a x) b y) where
  r _ _ := rfl
  f j hj := by
    obtain ⟨ha, hb⟩ : j ≠ a ∧ j ≠ b := by simpa using hj
    rw [readF_writeF_other _ _ _ _ hb, readF_writeF_other _ _ _ _ ha]
  q _ _ := rfl
  s _ _ := rfl
  t _ _ := rfl
  g _ _ := rfl
  h _ _ := rfl
  k _ _ := rfl
  dmem _ _ := rfl
  control := ⟨rfl, rfl, rfl, rfl, rfl, rfl, rfl, rfl⟩

theorem frame_writeQ_writeQ (s : State) (a b : RegIdx) (x y : Fp2) :
    Frame { q := [a, b] } s (writeQ (writeQ s a x) b y) where
  r _ _ := rfl
  f _ _ := rfl
  q j hj := by
    obtain ⟨ha, hb⟩ : j ≠ a ∧ j ≠ b := by simpa using hj
    rw [readQ_writeQ_other _ _ _ _ hb, readQ_writeQ_other _ _ _ _ ha]
  s _ _ := rfl
  t _ _ := rfl
  g _ _ := rfl
  h _ _ := rfl
  k _ _ := rfl
  dmem _ _ := rfl
  control := ⟨rfl, rfl, rfl, rfl, rfl, rfl, rfl, rfl⟩

section
variable (s : State) (a b c d : RegIdx)

theorem g1Pack_exec : exec (.g1Pack a b c d) s = retire s (.ok (writeG s a
    (if (readF s d).val = 0 then .O else toAffine opsFp (readF s b) (readF s c) (readF s d)))) := rfl

theorem g2Pack_exec : exec (.g2Pack a b c d) s = retire s (.ok (writeH s a
    (if readQ s d = zero2 then .O else toAffine opsFp2 (readQ s b) (readQ s c) (readQ s d)))) := rfl

variable {s c}

theorem g1Getaff_traps (h : readG s c = .O) : Traps (.g1Getaff a b c) s .noInverse 0 := by
  change execG1Getaff a b c s = _
  unfold execG1Getaff
  rw [h]
  rfl

theorem g2Getaff_traps (h : readH s c = .O) : Traps (.g2Getaff a b c) s .noInverse 0 := by
  change execG2Getaff a b c s = _
  unfold execG2Getaff
  rw [h]
  rfl

theorem g1Getaff_runs {x y : Fp} (h : readG s c = .aff x y) :
    Runs (.g1Getaff a b c) s { f := [a, b] } (fun u => (a ≠ b → readF u a = x) ∧ readF u b = y) := by
  have hexec : exec (.g1Getaff a b c) s = retire s (.ok (writeF (writeF s a x) b y)) := by
    change execG1Getaff a b c s = _
    unfold execG1Getaff
    rw [h]
  refine runs_of_retire hexec rfl (frame_writeF_writeF s a b x y) ⟨fun hab => ?_, by simp⟩
  rw [readF_setPc, readF_writeF_other _ _ _ _ hab, readF_writeF_same]

theorem g2Getaff_runs {x y : Fp2} (h : readH s c = .aff x y) :
    Runs (.g2Getaff a b c) s { q := [a, b] } (fun u => (a ≠ b → readQ u a = x) ∧ readQ u b = y) := by
  have hexec : exec (.g2Getaff a b c) s = retire s (.ok (writeQ (writeQ s a x) b y)) := by
    change execG2Getaff a b c s = _
    unfold execG2Getaff
    rw [h]
  refine runs_of_retire hexec rfl (frame_writeQ_writeQ s a b x y) ⟨fun hab => ?_, by simp⟩
  rw [readQ_setPc, readQ_writeQ_other _ _ _ _ hab, readQ_writeQ_same]

end

/-- Settles O39: the quotients of the packs multiply back, and the coordinates are written one after the other. -/
theorem pointMovesAndCoordinates : Obligations.PointMovesAndCoordinates := by
  refine ⟨fun a b c d => ⟨rfl, rfl, rfl, rfl, rfl, rfl, rfl, rfl, rfl, rfl⟩,
    fun s a b c d => ⟨?_, ?_, ?_, fun hd => ?_, fun hd => ?_, g1Getaff_traps a b, fun x y => g1Getaff_runs a b⟩,
    fun s a b c d => ⟨?_, ?_, ?_, fun hd => ?_, fun hd => ?_, g2Getaff_traps a b, fun x y => g2Getaff_runs a b⟩⟩
  · exact runs_writeG rfl fun _ hu => hu
  · exact runs_writeG rfl fun _ hu => hu
  · exact runs_writeG rfl fun _ hu => ⟨_, _, hu, by decide +kernel⟩
  · exact runs_writeG (g1Pack_exec s a b c d) fun _ hu => by rw [hu, if_pos hd]
  · refine runs_writeG (g1Pack_exec s a b c d) fun _ hu => ?_
    rw [if_neg hd, toAffine_opsFp] at hu
    exact ⟨_, _, hu, quotient_mul_mod _ hd, quotient_mul_mod _ hd⟩
  · exact runs_writeH rfl fun _ hu => hu
  · exact runs_writeH rfl fun _ hu => hu
  · exact runs_writeH rfl fun _ hu => ⟨_, _, hu, by decide +kernel⟩
  · exact runs_writeH (g2Pack_exec s a b c d) fun _ hu => by rw [hu, if_pos hd]
  · refine runs_writeH (g2Pack_exec s a b c d) fun _ hu => ?_
    rw [if_neg hd] at hu
    exact ⟨_, _, hu, quotient2_mul _ hd, quotient2_mul _ hd⟩

/-! Tests (R328 to R332, R370 to R374). -/

theorem isO_iff {F : Type} (a : Point F) : isO a = true ↔ a = .O := by cases a <;> simp [isO]

theorem valid1_iff (a : Point Fp) : valid1 a = true ↔ OnCurve1 a ∧ InSubgroup1 a := by
  rw [valid1, Bool.and_eq_true, oncurve_iff, insub1_iff]

theorem valid2_iff (a : Point Fp2) : valid2 a = true ↔ OnCurve2 a ∧ InSubgroup2 a := by
  rw [valid2, Bool.and_eq_true, oncurve2_iff, insub2_iff]

/-- Settles O40: each test decides its predicate. -/
theorem pointTestsAnswerTheirPredicates : Obligations.PointTestsAnswerTheirPredicates := by
  refine ⟨fun a b c => ⟨rfl, rfl, rfl, rfl, rfl, rfl, rfl, rfl, rfl, rfl⟩, fun s a b c =>
    ⟨?_, ?_, ?_, ?_, ?_, ?_, ?_, ?_, ?_, ?_⟩⟩
  · exact runs_writeR rfl fun _ hu => answers_boolWord decide_eq_true_iff hu
  · exact runs_writeR rfl fun _ hu => answers_boolWord (isO_iff _) hu
  · exact runs_writeR rfl fun _ hu => answers_boolWord (oncurve_iff _) hu
  · exact runs_writeR rfl fun _ hu => answers_boolWord (insub1_iff _) hu
  · exact runs_writeR rfl fun _ hu => answers_boolWord (valid1_iff _) hu
  · exact runs_writeR rfl fun _ hu => answers_boolWord decide_eq_true_iff hu
  · exact runs_writeR rfl fun _ hu => answers_boolWord (isO_iff _) hu
  · exact runs_writeR rfl fun _ hu => answers_boolWord (oncurve2_iff _) hu
  · exact runs_writeR rfl fun _ hu => answers_boolWord (insub2_iff _) hu
  · exact runs_writeR rfl fun _ hu => answers_boolWord (valid2_iff _) hu

/-! Sums and multiples (R321 to R327, R363 to R369). -/

/-- Settles O41: both fields divide, so the sums meet the equations of the chord and tangent. -/
theorem pointSums : Obligations.PointSums := by
  refine ⟨fun a b c => ⟨rfl, rfl, rfl, rfl, rfl, rfl, rfl, rfl⟩, fun s a b c => ⟨?_, ?_, ?_, ?_⟩,
    fun s a b c => ⟨?_, ?_, ?_, ?_⟩⟩
  · exact runs_writeG rfl fun _ hu => by rw [hu]; exact ptAdd_addsTo divides_opsFp _ _
  · exact runs_writeG rfl fun _ hu => by rw [hu]; exact ⟨_, ptNeg_negatesTo _, ptAdd_addsTo divides_opsFp _ _⟩
  · exact runs_writeG rfl fun _ hu => by rw [hu]; exact ptNeg_negatesTo _
  · exact runs_writeG rfl fun _ hu => by rw [hu]; exact ptDbl_doublesTo divides_opsFp _
  · exact runs_writeH rfl fun _ hu => by rw [hu]; exact ptAdd_addsTo divides_opsFp2 _ _
  · exact runs_writeH rfl fun _ hu => by rw [hu]; exact ⟨_, ptNeg_negatesTo _, ptAdd_addsTo divides_opsFp2 _ _⟩
  · exact runs_writeH rfl fun _ hu => by rw [hu]; exact ptNeg_negatesTo _
  · exact runs_writeH rfl fun _ hu => by rw [hu]; exact ptDbl_doublesTo divides_opsFp2 _

/-- Settles O42: all six write a multiple, which is the value of the loop. -/
theorem pointMultiplesFollowTheLoop : Obligations.PointMultiplesFollowTheLoop := by
  refine ⟨fun a b c => ⟨rfl, rfl, rfl, rfl, rfl, rfl⟩, fun s a b c loop1 loop2 h1 h2 => ⟨?_, ?_, ?_, ?_, ?_, ?_⟩⟩
  · exact runs_writeG rfl fun _ hu => hu.trans (ptMul_eq_loop h1 _ _)
  · exact runs_writeG rfl fun _ hu => hu.trans (ptMul_eq_loop h1 _ _)
  · exact runs_writeG rfl fun _ hu => hu.trans (ptMul_eq_loop h1 _ xAbs)
  · exact runs_writeH rfl fun _ hu => hu.trans (ptMul_eq_loop h2 _ _)
  · exact runs_writeH rfl fun _ hu => hu.trans (ptMul_eq_loop h2 _ _)
  · exact runs_writeH rfl fun _ hu => hu.trans (ptMul_eq_loop h2 _ xAbs)

/-! Endomorphisms and cofactors (R333, R334, R375 to R377). -/

/-- Settles O43: each is one write of its function, and `ψ` twice is `ψ²`. -/
theorem endomorphismsAndCofactors : Obligations.EndomorphismsAndCofactors := by
  refine ⟨fun a b => ⟨rfl, rfl, rfl, rfl, rfl⟩, fun s a b => ⟨?_, ?_, ?_, ?_, ?_⟩⟩
  · refine runs_writeG rfl fun _ hu => ?_
    rw [hu]
    refine ⟨fun hb => by rw [hb]; rfl, fun x y hb => ⟨fmul beta x, by rw [hb, phi_aff], ?_⟩⟩
    exact congrArg (· * x.val % fieldP) (show beta.val = _ by decide +kernel)
  · exact runs_writeG rfl fun _ hu => hu
  · refine runs_writeH rfl fun _ hu => ?_
    rw [hu]
    refine ⟨fun hb => by rw [hb]; rfl, fun x y hb => ?_⟩
    rw [hb, qFrob_one, qFrob_one, psi]
  · exact runs_writeH rfl fun _ hu => hu.trans (psi_psi _).symm
  · exact runs_writeH rfl fun _ hu => hu

end Sys2Proof.Machine
end

section
/-! PROOFS. The point encodings as integers (spec/45_g1.md R312 to R314; spec/46_g2.md R356, R357), and the stores that
write them (R337 to R339, R380 to R382). -/

namespace Sys2Proof.Machine

open Sys2Proof

/-! Byte strings in pieces (spec/00_scope.md R8). -/

theorem os2ip_append (l₁ l₂ : List Byte) : os2ip (l₁ ++ l₂) = os2ip l₁ * 256 ^ l₂.length + os2ip l₂ := by
  rw [os2ip, List.foldl_append]
  exact foldl_os2ip l₂ (os2ip l₁)

theorem os2ip_replicate_zero (n : Nat) : os2ip (List.replicate n 0) = 0 := by
  induction n with
  | zero => rfl
  | succ n ih => rw [List.replicate_succ, os2ip_cons, ih]; exact Nat.zero_mul _

/-- One byte and zeros: the encodings of the identity. -/
theorem os2ip_cons_zeros (b : Byte) (n : Nat) : os2ip (b :: List.replicate n 0) = b.toNat * 256 ^ n := by
  rw [os2ip_cons, os2ip_replicate_zero, List.length_replicate, Nat.add_zero]

theorem os2ip_i2osp_of_lt {v n : Nat} (h : v < 256 ^ n) : os2ip (i2osp v n) = v := by
  rw [os2ip_i2osp, Nat.mod_eq_of_lt h]

theorem os2ip_i2osp_val (x : Fp) : os2ip (i2osp x.val 48) = x.val :=
  os2ip_i2osp_of_lt (x.isLt.trans fieldP_lt_pow)

/-! The signs (R314, R356). -/

theorem sign1_iff (y : Fp) : sign1 y = true ↔ (fieldP - 1) / 2 < y.val := decide_eq_true_iff

theorem signBit2_eq (y : Fp2) : signBit2 y = if sign2 y then 1 else 0 := by
  by_cases h : y.c1.val = 0
  · have hne : ¬(y.c1.val != 0) = true := by simpa using h
    rw [sign2, signBit2, if_pos h, if_neg hne]
    exact (if_congr decide_eq_true_iff rfl rfl).symm
  · have hne : (y.c1.val != 0) = true := by simpa using h
    rw [sign2, signBit2, if_neg h, if_pos hne]
    exact (if_congr decide_eq_true_iff rfl rfl).symm

theorem sign2_iff (y : Fp2) : sign2 y = true ↔ signBit2 y = 1 := by
  rw [signBit2_eq]
  cases sign2 y <;> simp

/-- A coordinate leaves the three bits above it free for the flags: `p < 2^381`. -/
theorem fieldP_lt_two_pow : fieldP < 2 ^ 381 := by decide +kernel

/-- The first 48 bytes of a compressed point: the flag bits 4 and 1 above the coordinate. -/
theorem flagged_eq (x : Nat) (b : Bool) :
    2 ^ 383 + (if b then 2 ^ 381 else 0) + x = 2 ^ 381 * (4 + b.toNat) + x := by
  rw [show 2 ^ 383 = 2 ^ 381 * 4 by decide +kernel]
  cases b <;> simp only [Bool.false_eq_true, if_false, if_true, Bool.toNat_false, Bool.toNat_true, Nat.mul_add,
    Nat.mul_one, Nat.mul_zero]

theorem flagged_lt (x : Fp) (b : Bool) : 2 ^ 383 + (if b then 2 ^ 381 else 0) + x.val < 256 ^ 48 := by
  have hx := x.isLt.trans fieldP_lt_two_pow
  rw [flagged_eq, show 256 ^ 48 = 2 ^ 381 * 8 by decide +kernel]
  generalize 2 ^ 381 = w at hx ⊢
  cases b <;> simp only [Bool.toNat_false, Bool.toNat_true] <;> omega

/-! Lengths and integers of the encodings. -/

theorem compress1_length (a : Point Fp) : (compress1 a).length = 48 := by
  cases a with
  | O => rfl
  | aff x y => exact i2osp_length _ _

theorem uncompressed1_length (a : Point Fp) : (uncompressed1 a).length = 96 := by
  cases a with
  | O => rfl
  | aff x y => rw [uncompressed1, List.length_append, i2osp_length, i2osp_length]

theorem compress2_length (a : Point Fp2) : (compress2 a).length = 96 := by
  cases a with
  | O => rfl
  | aff x y => rw [compress2, List.length_append, i2osp_length, i2osp_length]

theorem uncompressed2_length (a : Point Fp2) : (uncompressed2 a).length = 192 := by
  cases a with
  | O => rfl
  | aff x y => simp only [uncompressed2, List.length_append, i2osp_length]

theorem os2ip_compress1 (a : Point Fp) : os2ip (compress1 a) = codeC1 a := by
  cases a with
  | O => exact os2ip_cons_zeros _ _
  | aff x y =>
    rw [compress1, os2ip_i2osp_of_lt (flagged_lt x _), codeC1]
    simp only [sign1_iff]

theorem os2ip_uncompressed1 (a : Point Fp) : os2ip (uncompressed1 a) = codeU1 a := by
  cases a with
  | O => exact os2ip_cons_zeros _ _
  | aff x y => rw [uncompressed1, os2ip_append, i2osp_length, os2ip_i2osp_val, os2ip_i2osp_val, codeU1]

theorem os2ip_compress2 (a : Point Fp2) : os2ip (compress2 a) = codeC2 a := by
  cases a with
  | O => exact os2ip_cons_zeros _ _
  | aff x y =>
    rw [compress2, os2ip_append, i2osp_length, os2ip_i2osp_of_lt (flagged_lt x.c1 _), os2ip_i2osp_val, codeC2,
      signBit2_eq, ite_mul, Nat.one_mul, Nat.zero_mul]

theorem os2ip_uncompressed2 (a : Point Fp2) : os2ip (uncompressed2 a) = codeU2 a := by
  cases a with
  | O => exact os2ip_cons_zeros _ _
  | aff x y =>
    rw [uncompressed2, os2ip_append, os2ip_append, os2ip_append, i2osp_length, i2osp_length, i2osp_length]
    simp only [os2ip_i2osp_val, codeU2]

/-! One point (R337, R338, R380, R381). -/

section
variable {i : Instr} {s : State} {addr : Word} {bytes : List Byte} {n v : Nat}

theorem runs_store_code (h : exec i s = retire s (memWrite s addr bytes)) (hlen : bytes.length = n)
    (hv : os2ip bytes = v) (hin : addr.toNat + n ≤ Config.dmemBytes) (hm : Memory.wf s.dmem) :
    Runs i s { memAt := addr.toNat, memLen := n } (fun u => intAt u addr n = v) := by
  subst hlen
  exact runs_store h (fits_of_le hin) hm fun u hu => by rw [intAt, hu, hv]

theorem traps_store_code (h : exec i s = retire s (memWrite s addr bytes)) (hlen : bytes.length = n) (hn : n ≠ 0)
    (hout : Config.dmemBytes < addr.toNat + n) : Traps i s .dmemRange addr := by
  subst hlen
  exact traps_store h (not_fits_of_lt hn hout)

end

/-! A run of points (R339, R382). -/

/-- A piece of a byte string in memory. -/
theorem readBytes_piece (m : List Host.Cell) (a k n len : Nat) (h : k + n ≤ len) :
    readBytes m (a + k) n = ((readBytes m a len).drop k).take n := by
  induction k generalizing a len with
  | zero =>
    induction n generalizing a len with
    | zero => simp [readBytes]
    | succ n ih =>
      obtain ⟨len, rfl⟩ : ∃ l, len = l + 1 := ⟨len - 1, by omega⟩
      have hrest := ih (a + 1) len (by omega)
      simp only [Nat.add_zero, List.drop_zero] at hrest ⊢
      rw [readBytes, readBytes, List.take_succ_cons, hrest]
  | succ k ih =>
    obtain ⟨len, rfl⟩ : ∃ l, len = l + 1 := ⟨len - 1, by omega⟩
    rw [readBytes, List.drop_succ_cons, ← ih (a + 1) len (by omega), Nat.add_assoc, Nat.add_comm 1 k]

section
variable {α : Type} {enc : α → List Byte} {k : Nat}

theorem flatMap_length_of_uniform (henc : ∀ p, (enc p).length = k) (l : List α) :
    (l.flatMap enc).length = k * l.length := by
  simp [List.length_flatMap, henc, Nat.mul_comm]

/-- Where all pieces are of one length, each is found by its number. -/
theorem flatMap_piece (henc : ∀ p, (enc p).length = k) (l : List α) (j : Nat) (hj : j < l.length) :
    ((l.flatMap enc).drop (k * j)).take k = enc l[j] := by
  induction l generalizing j with
  | nil => exact absurd hj (Nat.not_lt_zero j)
  | cons p rest ih =>
    rw [List.flatMap_cons]
    cases j with
    | zero => rw [Nat.mul_zero, List.drop_zero, List.take_left' (henc p), List.getElem_cons_zero]
    | succ j =>
      have hdrop : k * (j + 1) = (enc p).length + k * j := by rw [henc, Nat.mul_succ, Nat.add_comm]
      rw [hdrop, List.drop_length_add_append, List.getElem_cons_succ]
      exact ih j (Nat.lt_of_succ_lt_succ hj)

variable {i : Instr} {s : State} {addr : Word} {file : RegFile α} {b : RegIdx} {n : Nat}

theorem regRun_in (file : RegFile α) (hrun : b.val + n ≤ 16) :
    ∃ pts, regRun file b n = .ok pts ∧ pts.length = n ∧
      ∀ j (hj : j < pts.length), pts[j] = file.get (Fin.ofNat 16 (b.val + j)) := by
  obtain ⟨_, hok⟩ | ⟨hout, _⟩ := regRun_cases file b n
  · have hlen : ((file.toList.drop b.val).take n).length = n := by simp; omega
    refine ⟨_, hok, hlen, fun j hj => ?_⟩
    have hlt : b.val + j < 16 := by omega
    simp [Vector.get_eq_getElem, Nat.mod_eq_of_lt hlt]
  · omega

theorem traps_storeRun_regRange {k : List α → Res State} (h : exec i s = retire s (regRun file b n >>= k))
    (hout : 16 < b.val + n) : Traps i s .regRange 0 := by
  obtain ⟨hin, _⟩ | ⟨_, herr⟩ := regRun_cases file b n
  · omega
  · rw [herr, res_error_bind] at h
    exact traps_of_retire h

theorem traps_storeRun_dmemRange
    (h : exec i s = retire s (regRun file b n >>= fun pts => memWrite s addr (pts.flatMap enc)))
    (henc : ∀ p, (enc p).length = k) (hrun : b.val + n ≤ 16) (hf : ¬Fits addr (k * n)) :
    Traps i s .dmemRange addr := by
  obtain ⟨pts, hok, hlen, _⟩ := regRun_in file hrun
  rw [hok, res_ok_bind] at h
  exact traps_store h (by rwa [flatMap_length_of_uniform henc, hlen])

theorem runs_storeRun {code : α → Nat}
    (h : exec i s = retire s (regRun file b n >>= fun pts => memWrite s addr (pts.flatMap enc)))
    (henc : ∀ p, (enc p).length = k) (hcode : ∀ p, os2ip (enc p) = code p) (hrun : b.val + n ≤ 16)
    (hf : Fits addr (k * n)) (hm : Memory.wf s.dmem) :
    Runs i s { memAt := addr.toNat, memLen := k * n } (fun u =>
      ∀ j < n, intAt u (addr + BitVec.ofNat 32 (k * j)) k = code (file.get (Fin.ofNat 16 (b.val + j)))) := by
  obtain ⟨pts, hok, rfl, hpts⟩ := regRun_in file hrun
  rw [hok, res_ok_bind] at h
  rw [← flatMap_length_of_uniform henc] at hf ⊢
  refine runs_store h hf hm fun u hu j hj => ?_
  have hpiece : k * j + k ≤ k * pts.length := Nat.mul_le_mul_left k hj
  have haddr : (addr + BitVec.ofNat 32 (k * j)).toNat = addr.toNat + k * j := by
    rw [flatMap_length_of_uniform henc, Fits, Config.dmemBytes] at hf
    rw [BitVec.toNat_add, BitVec.toNat_ofNat]
    omega
  rw [bytesAt, flatMap_length_of_uniform henc] at hu
  rw [intAt, bytesAt, haddr, readBytes_piece _ _ _ _ _ hpiece, hu, flatMap_piece henc pts j hj, hpts, hcode]

end

/-- Settles O44: the bytes a store writes are as many as its encoding has, and read back as the code of the point. -/
theorem pointStores : Obligations.PointStores := by
  refine ⟨fun a b c imm => ⟨rfl, rfl, rfl, rfl, rfl, rfl⟩, fun s a b imm hm => ⟨?_, ?_, ?_, ?_, ?_, ?_, ?_, ?_⟩,
    fun s a b c hm => ⟨fun hout => ⟨?_, ?_⟩, fun hrun => ⟨?_, ?_, ?_, ?_⟩⟩⟩
  · exact fun hin => runs_store_code rfl (compress1_length _) (os2ip_compress1 _) hin hm
  · exact fun hin => runs_store_code rfl (uncompressed1_length _) (os2ip_uncompressed1 _) hin hm
  · exact fun hin => runs_store_code rfl (compress2_length _) (os2ip_compress2 _) hin hm
  · exact fun hin => runs_store_code rfl (uncompressed2_length _) (os2ip_uncompressed2 _) hin hm
  · exact traps_store_code rfl (compress1_length _) (by decide)
  · exact traps_store_code rfl (uncompressed1_length _) (by decide)
  · exact traps_store_code rfl (compress2_length _) (by decide)
  · exact traps_store_code rfl (uncompressed2_length _) (by decide)
  · exact traps_storeRun_regRange (file := s.g) rfl hout
  · exact traps_storeRun_regRange (file := s.h) rfl hout
  · exact fun hf => runs_storeRun rfl uncompressed1_length os2ip_uncompressed1 hrun hf hm
  · exact fun hf => runs_storeRun rfl uncompressed2_length os2ip_uncompressed2 hrun hf hm
  · exact traps_storeRun_dmemRange rfl uncompressed1_length hrun
  · exact traps_storeRun_dmemRange rfl uncompressed2_length hrun

end Sys2Proof.Machine
end

section
/-! PROOFS. The points with a given `x` (spec/45_g1.md R301, R309, R335, R336; spec/46_g2.md R350, R354, R378, R379): of
two opposite roots of the curve's right-hand side the sign picks one, and `x³ + (4,4)` is never zero in Fp2, so `q_sqrt`
refuses for want of a root only. -/

namespace Sys2Proof.Machine

open Sys2Proof

/-! The curve equations. -/

theorem toZ_curveRhs (x : Fp) : toZ (curveRhs x) = toZ x ^ 3 + 4 := by
  simp only [curveRhs, b1, toZ_fadd, toZ_fmul, toZ_toFp]
  push_cast
  ring

theorem val_curveRhs_toFp (x : Nat) : (curveRhs (toFp x)).val = (x ^ 3 + 4) % fieldP :=
  val_eq_mod_of_toZ (by rw [toZ_curveRhs, toZ_toFp]; push_cast; rfl)

theorem onCurve1_aff_iff (x y : Fp) : OnCurve1 (.aff x y) ↔ toZ y * toZ y = toZ (curveRhs x) := by
  rw [← oncurve_iff, ← toZ_fmul]
  exact decide_eq_true_iff.trans ⟨fun h => congrArg toZ h, fun h => toZ_inj h⟩

theorem onCurve2_aff_iff (x y : Fp2) : OnCurve2 (.aff x y) ↔ qMul y y = curveRhs2 x := Iff.rfl

/-- `-(4,4)` is `ξ⁵`, and `ξ` is no cube. -/
theorem curveRhs2_ne_zero (x : Fp2) : curveRhs2 x ≠ zero2 := by
  let := ringFp2
  intro h
  have hxi : mkFp2 4 4 = -xi ^ 5 := by decide +kernel
  have hcube : x ^ 3 = xi ^ 5 := by
    have hsum : x * x * x + mkFp2 4 4 = 0 := h
    rw [hxi] at hsum
    linear_combination hsum
  obtain ⟨hzero, _⟩ := eq_zero_of_cube_eq_xi_mul_cube (x := xi ^ 2) (y := x) (by rw [hcube]; ring)
  exact absurd hzero (by decide +kernel)

/-! Signs of opposite roots. -/

theorem val_fneg_of_ne_zero {y : Fp} (hy : y.val ≠ 0) : (fneg y).val = fieldP - y.val :=
  toFp_val_of_lt (by have := y.isLt; omega)

theorem val_fneg_of_eq_zero {y : Fp} (hy : y.val = 0) : (fneg y).val = 0 := by
  rw [← toZ_eq_zero, toZ_fneg, toZ_eq_zero.mpr hy, neg_zero]

/-- `p` is odd, so of two opposite non-zero values one is above `(p-1)/2`. -/
theorem half_lt_val_fneg_iff {y : Fp} (hy : y.val ≠ 0) : halfP < (fneg y).val ↔ ¬halfP < y.val := by
  have hlt := y.isLt
  have hodd : fieldP = 2 * halfP + 1 := by decide +kernel
  rw [val_fneg_of_ne_zero hy]
  omega

theorem sign1_fneg {y : Fp} (hy : y.val ≠ 0) : sign1 (fneg y) = !sign1 y := by
  simp only [sign1, half_lt_val_fneg_iff hy, decide_not]

theorem sign2_of_imaginary {y : Fp2} (h : y.c1.val ≠ 0) : sign2 y = decide (halfP < y.c1.val) := by
  rw [sign2, if_pos (bne_iff_ne.mpr h)]

theorem sign2_of_real {y : Fp2} (h : y.c1.val = 0) : sign2 y = decide (halfP < y.c0.val) := by
  rw [sign2, if_neg (by rw [bne_iff_ne]; exact not_not.mpr h)]

theorem sign2_qNeg {y : Fp2} (hy : y ≠ zero2) : sign2 (qNeg y) = !sign2 y := by
  by_cases h1 : y.c1.val = 0
  · have h0 : y.c0.val ≠ 0 := fun h0 => hy ((fp2_eq_iff_val y zero2).mpr ⟨h0, h1⟩)
    rw [sign2_of_real h1, sign2_of_real (val_fneg_of_eq_zero h1), qNeg_c0]
    simp only [half_lt_val_fneg_iff h0, decide_not]
  · have hne : (qNeg y).c1.val ≠ 0 := by
      have hlt := y.c1.isLt
      rw [qNeg_c1, val_fneg_of_ne_zero h1]
      omega
    rw [sign2_of_imaginary h1, sign2_of_imaginary hne, qNeg_c1]
    simp only [half_lt_val_fneg_iff h1, decide_not]

/-- Of a value and its opposite, the sign of the first picks the first. -/
theorem pick_by_sign {F : Type} {neg : F → F} {sgn : F → Bool} {y c : F} (hneg : neg (neg y) = y)
    (hsgn : sgn (neg y) = !sgn y) (hc : c = y ∨ c = neg y) : (if sgn c = sgn y then c else neg c) = y := by
  rcases hc with rfl | rfl
  · exact if_pos rfl
  · rw [if_neg (by rw [hsgn]; cases sgn y <;> simp), hneg]

/-! The point with a given `x` and sign. -/

theorem eq_or_eq_fneg_of_sq {y c : Fp} (h : toZ c * toZ c = toZ y * toZ y) : c = y ∨ c = fneg y := by
  have : Fact (Nat.Prime fieldP) := ⟨fieldP_prime⟩
  rw [mul_self_eq_mul_self_iff, ← toZ_fneg] at h
  exact h.imp toZ_inj toZ_inj

theorem eq_or_eq_qNeg_of_sq {y c : Fp2} (h : qMul c c = qMul y y) : c = y ∨ c = qNeg y :=
  let := fieldFp2
  mul_self_eq_mul_self_iff.mp h

theorem fneg_fneg (y : Fp) : fneg (fneg y) = y := toZ_inj (by rw [toZ_fneg, toZ_fneg, neg_neg])

theorem qNeg_qNeg (y : Fp2) : qNeg (qNeg y) = y :=
  let := ringFp2
  neg_neg y

/-- The root of `x³ + 4` that has the sign of `y`, where `y` is a root. -/
theorem pick_root1 {y c : Fp} (h : toZ c * toZ c = toZ y * toZ y) :
    (if sign1 c = sign1 y then c else fneg c) = y := by
  by_cases hy : y.val = 0
  · have hc : c = y := by
      rcases eq_or_eq_fneg_of_sq h with rfl | rfl
      · rfl
      · exact Fin.ext ((val_fneg_of_eq_zero hy).trans hy.symm)
    rw [hc, if_pos rfl]
  · exact pick_by_sign (fneg_fneg y) (sign1_fneg hy) (eq_or_eq_fneg_of_sq h)

theorem pick_root2 {y c : Fp2} (hy : y ≠ zero2) (h : qMul c c = qMul y y) :
    (if sign2 c = sign2 y then c else qNeg c) = y :=
  pick_by_sign (qNeg_qNeg y) (sign2_qNeg hy) (eq_or_eq_qNeg_of_sq h)

theorem liftX1_of_root {x y : Fp} (h : OnCurve1 (.aff x y)) :
    liftX1 x (sign1 y) = if insub1 (.aff x y) then .ok (.aff x y) else .error (fails .notInSubgroup) := by
  rw [onCurve1_aff_iff] at h
  have hroot := (sqrtCand_mul_self h).trans h.symm
  unfold liftX1
  rw [fsqrt_of_square h]
  dsimp only
  rw [pick_root1 hroot]

theorem liftX1_of_no_root {x : Fp} (sgn : Bool) (h : ¬∃ y : Fp, y.val * y.val % fieldP = (curveRhs x).val) :
    liftX1 x sgn = .error (fails .notOnCurve) := by
  unfold liftX1
  rw [fsqrt_of_no_root h]

theorem liftX2_of_root {x y : Fp2} (h : OnCurve2 (.aff x y)) :
    liftX2 x (sign2 y) = if insub2 (.aff x y) then .ok (.aff x y) else .error (fails .notInSubgroup) := by
  rw [onCurve2_aff_iff] at h
  have hne := curveRhs2_ne_zero x
  have hy : y ≠ zero2 := by
    rintro rfl
    exact hne (h.symm.trans (qRing_zero_mul _))
  obtain ⟨c, hc, hok⟩ | ⟨hno, _⟩ := qSqrt_cases hne
  · have hc0 : c ≠ zero2 := by
      rintro rfl
      exact hne (hc.symm.trans (qRing_zero_mul _))
    have hroot := ((qGreater_qNeg hc0).1.trans hc).trans h.symm
    unfold liftX2
    rw [hok]
    dsimp only
    rw [pick_root2 hy hroot]
  · exact absurd ⟨y, h⟩ hno

theorem liftX2_of_no_root {x : Fp2} (sgn : Bool) (h : ¬∃ y, OnCurve2 (.aff x y)) :
    liftX2 x sgn = .error (fails .notOnCurve) := by
  obtain ⟨c, hc, _⟩ | ⟨_, herr⟩ := qSqrt_cases (curveRhs2_ne_zero x)
  · exact absurd ⟨c, hc⟩ h
  · unfold liftX2
    rw [herr]

section
variable {x y : Fp}

theorem liftX1_of_valid (hc : OnCurve1 (.aff x y)) (hs : InSubgroup1 (.aff x y)) :
    liftX1 x (sign1 y) = .ok (.aff x y) := by
  rw [liftX1_of_root hc, if_pos ((insub1_iff _).mpr hs)]

theorem liftX1_of_not_inSubgroup (hc : OnCurve1 (.aff x y)) (hs : ¬InSubgroup1 (.aff x y)) :
    liftX1 x (sign1 y) = .error (fails .notInSubgroup) := by
  rw [liftX1_of_root hc, if_neg (mt (insub1_iff _).mp hs)]

end

section
variable {x y : Fp2}

theorem liftX2_of_valid (hc : OnCurve2 (.aff x y)) (hs : InSubgroup2 (.aff x y)) :
    liftX2 x (sign2 y) = .ok (.aff x y) := by
  rw [liftX2_of_root hc, if_pos ((insub2_iff _).mpr hs)]

theorem liftX2_of_not_inSubgroup (hc : OnCurve2 (.aff x y)) (hs : ¬InSubgroup2 (.aff x y)) :
    liftX2 x (sign2 y) = .error (fails .notInSubgroup) := by
  rw [liftX2_of_root hc, if_neg (mt (insub2_iff _).mp hs)]

end

/-! The checks of an uncompressed pair (R336, R379). -/

section
variable {a : Point Fp}

theorem checked1_of_not_onCurve (hc : ¬OnCurve1 a) : checked1 a = .error (fails .notOnCurve) :=
  if_pos (Bool.eq_false_iff.mpr (mt (oncurve_iff a).mp hc))

theorem checked1_of_onCurve (hc : OnCurve1 a) :
    checked1 a = if insub1 a = false then .error (fails .notInSubgroup) else .ok a :=
  if_neg (by rw [(oncurve_iff a).mpr hc]; decide)

theorem checked1_of_not_inSubgroup (hc : OnCurve1 a) (hs : ¬InSubgroup1 a) :
    checked1 a = .error (fails .notInSubgroup) := by
  rw [checked1_of_onCurve hc, if_pos (Bool.eq_false_iff.mpr (mt (insub1_iff a).mp hs))]

theorem checked1_of_valid (hc : OnCurve1 a) (hs : InSubgroup1 a) : checked1 a = .ok a := by
  rw [checked1_of_onCurve hc, if_neg (by rw [(insub1_iff a).mpr hs]; decide)]

end

section
variable {a : Point Fp2}

theorem checked2_of_not_onCurve (hc : ¬OnCurve2 a) : checked2 a = .error (fails .notOnCurve) :=
  if_pos (Bool.eq_false_iff.mpr (mt (oncurve2_iff a).mp hc))

theorem checked2_of_onCurve (hc : OnCurve2 a) :
    checked2 a = if insub2 a = false then .error (fails .notInSubgroup) else .ok a :=
  if_neg (by rw [(oncurve2_iff a).mpr hc]; decide)

theorem checked2_of_not_inSubgroup (hc : OnCurve2 a) (hs : ¬InSubgroup2 a) :
    checked2 a = .error (fails .notInSubgroup) := by
  rw [checked2_of_onCurve hc, if_pos (Bool.eq_false_iff.mpr (mt (insub2_iff a).mp hs))]

theorem checked2_of_valid (hc : OnCurve2 a) (hs : InSubgroup2 a) : checked2 a = .ok a := by
  rw [checked2_of_onCurve hc, if_neg (by rw [(insub2_iff a).mpr hs]; decide)]

end

end Sys2Proof.Machine
end

section
/-! PROOFS. The decoders of the point encodings, read from the integers of their bytes (spec/45_g1.md R335, R336;
spec/46_g2.md R378, R379): the order of the checks of the compressed and of the uncompressed forms is said once for both
groups, and each decoder gives back the point that its bytes encode. -/

namespace Sys2Proof.Machine

open Sys2Proof

/-! The pieces of a byte string as quotients and remainders of its integer. -/

section
variable {bytes : List Byte}

theorem two_pow_mul_eight (n : Nat) : 2 ^ (8 * n) = 256 ^ n := by norm_num [pow_mul]

theorem os2ip_split (m n : Nat) (h : bytes.length = m + n) :
    os2ip bytes = 2 ^ (8 * n) * os2ip (bytes.take m) + os2ip (bytes.drop m) ∧
      os2ip (bytes.drop m) < 2 ^ (8 * n) := by
  have hdrop : (bytes.drop m).length = n := by rw [List.length_drop, h, Nat.add_sub_cancel_left]
  have happ := os2ip_append (bytes.take m) (bytes.drop m)
  rw [List.take_append_drop, hdrop] at happ
  rw [two_pow_mul_eight, Nat.mul_comm]
  exact ⟨happ, hdrop ▸ os2ip_lt (bytes.drop m)⟩

variable {m n k d e : Nat}

theorem os2ip_take (h : bytes.length = m + n) (he : 8 * n = e) : os2ip (bytes.take m) = os2ip bytes / 2 ^ e := by
  subst he
  obtain ⟨heq, hlt⟩ := os2ip_split m n h
  rw [heq, Nat.mul_add_div (Nat.two_pow_pos _), Nat.div_eq_of_lt hlt, Nat.add_zero]

theorem os2ip_drop (h : bytes.length = m + n) (he : 8 * n = e) : os2ip (bytes.drop m) = os2ip bytes % 2 ^ e := by
  subst he
  obtain ⟨heq, hlt⟩ := os2ip_split m n h
  rw [heq, Nat.mul_add_mod, Nat.mod_eq_of_lt hlt]

theorem os2ip_drop_take (h : bytes.length = m + (k + n)) (hd : 8 * k = d) (he : 8 * n = e) :
    os2ip ((bytes.drop m).take k) = os2ip bytes / 2 ^ e % 2 ^ d := by
  have hdrop : (bytes.drop m).length = k + n := by rw [List.length_drop, h, Nat.add_sub_cancel_left]
  rw [os2ip_take hdrop he, os2ip_drop h (Nat.mul_add 8 k n), hd, he, Nat.add_comm d, pow_add,
    Nat.mod_mul_right_div_self]

/-- The bits of byte 0. -/
theorem headD_getLsbD (n i : Nat) (h : bytes.length = n + 1) :
    (bytes.headD 0).getLsbD i = (os2ip bytes).testBit (8 * n + i) := by
  cases bytes with
  | nil => exact absurd h (Nat.succ_ne_zero n).symm
  | cons b rest =>
    obtain rfl : rest.length = n := Nat.succ.inj h
    have hlt := os2ip_lt rest
    rw [← two_pow_mul_eight] at hlt
    rw [os2ip_cons, Nat.mul_comm, ← two_pow_mul_eight,
      Nat.testBit_two_pow_mul_add b.toNat hlt, if_neg (by omega), Nat.add_sub_cancel_left]
    rfl

end

/-! The order of the checks. -/

/-- The checks of a compressed form (R335, R378): its flags, the coordinates of the identity, and then the point. -/
def compressedForm {F : Type} (c i sgn zero : Bool) (point : Res (Point F)) : Res (Point F) :=
  if c = false then .error (fails .badFlags)
  else if i then (if sgn || !zero then .error (fails .badFlags) else .ok .O)
  else point

/-- The checks of an uncompressed form (R336, R379). -/
def uncompressedForm {F : Type} (c i sgn zero : Bool) (point : Res (Point F)) : Res (Point F) :=
  if c || sgn then .error (fails .badFlags)
  else if i then (if !zero then .error (fails .badFlags) else .ok .O)
  else point

section
variable {F : Type} {c i sgn zero : Bool} {point : Res (Point F)}

theorem compressedForm_refuses_flag (hc : c = false) :
    compressedForm c i sgn zero point = .error (fails .badFlags) := if_pos hc

theorem compressedForm_refuses_infinity (hc : c = true) (hi : i = true) (h : sgn = true ∨ zero = false) :
    compressedForm c i sgn zero point = .error (fails .badFlags) := by
  subst hc hi
  rcases h with rfl | rfl <;> simp [compressedForm]

theorem compressedForm_infinity (hc : c = true) (hi : i = true) (hs : sgn = false) (hz : zero = true) :
    compressedForm c i sgn zero point = .ok .O := by
  subst hc hi hs hz
  rfl

theorem compressedForm_point (hc : c = true) (hi : i = false) : compressedForm c i sgn zero point = point := by
  subst hc hi
  rfl

theorem uncompressedForm_refuses_flag (h : c = true ∨ sgn = true) :
    uncompressedForm c i sgn zero point = .error (fails .badFlags) :=
  if_pos (by rcases h with rfl | rfl <;> simp)

theorem uncompressedForm_refuses_infinity (hc : c = false) (hs : sgn = false) (hi : i = true) (hz : zero = false) :
    uncompressedForm c i sgn zero point = .error (fails .badFlags) := by
  subst hc hs hi hz
  rfl

theorem uncompressedForm_infinity (hc : c = false) (hs : sgn = false) (hi : i = true) (hz : zero = true) :
    uncompressedForm c i sgn zero point = .ok .O := by
  subst hc hs hi hz
  rfl

theorem uncompressedForm_point (hc : c = false) (hs : sgn = false) (hi : i = false) :
    uncompressedForm c i sgn zero point = point := by
  subst hc hs hi
  rfl

/-- A coordinate out of range, or one out of range after it. -/
theorem canonical_bind_refuses {α : Type} {v : Nat} {k : Fp → Res α}
    (h : fieldP ≤ v ∨ ∀ x, k x = .error (fails .nonCanonicalField)) :
    (canonical v >>= k) = .error (fails .nonCanonicalField) := by
  by_cases hv : fieldP ≤ v
  · rw [canonical_of_le hv, res_error_bind]
  · rw [canonical_of_lt (Nat.not_le.mp hv), res_ok_bind]
    exact h.resolve_left hv _

theorem canonical_bind_of_lt {α : Type} {v : Nat} (k : Fp → Res α) (h : v < fieldP) :
    (canonical v >>= k) = k (toFp v) := by rw [canonical_of_lt h, res_ok_bind]

end

/-! The four decoders in these forms. `B` is the integer of the bytes. -/

/-- The point of a compressed form of G1. -/
def pointC1 (x : Nat) (sgn : Bool) : Res (Point Fp) := canonical x >>= fun xf => liftX1 xf sgn

/-- The point of a compressed form of G2, its imaginary part first. -/
def pointC2 (x1 x0 : Nat) (sgn : Bool) : Res (Point Fp2) :=
  canonical x1 >>= fun c1 => canonical x0 >>= fun c0 => liftX2 ⟨c0, c1⟩ sgn

/-- The point of an uncompressed form of G1. -/
def pointU1 (x y : Nat) : Res (Point Fp) :=
  canonical x >>= fun xf => canonical y >>= fun yf => checked1 (.aff xf yf)

/-- The point of an uncompressed form of G2. -/
def pointU2 (x1 x0 y1 y0 : Nat) : Res (Point Fp2) :=
  canonical x1 >>= fun x1f => canonical x0 >>= fun x0f => canonical y1 >>= fun y1f => canonical y0 >>= fun y0f =>
    checked2 (.aff ⟨x0f, x1f⟩ ⟨y0f, y1f⟩)

theorem decompress1_eq {bytes : List Byte} {B : Nat} (hB : os2ip bytes = B) :
    decompress1 bytes = compressedForm (B.testBit 383) (B.testBit 382) (B.testBit 381) (B % 2 ^ 381 == 0)
      (pointC1 (B % 2 ^ 381) (B.testBit 381)) := by
  subst hB
  rfl

section
variable {bytes : List Byte} {B : Nat}

/-- The flags and the two halves of 96 bytes. -/
theorem halves_eq (h : bytes.length = 96) (hB : os2ip bytes = B) :
    (flagC (bytes.headD 0) = B.testBit 767 ∧ flagI (bytes.headD 0) = B.testBit 766 ∧
      flagS (bytes.headD 0) = B.testBit 765) ∧
    os2ip (bytes.take 48) = B / 2 ^ 384 ∧ os2ip (bytes.drop 48) = B % 2 ^ 384 := by
  subst hB
  exact ⟨⟨headD_getLsbD 95 7 h, headD_getLsbD 95 6 h, headD_getLsbD 95 5 h⟩, os2ip_take (n := 48) h rfl,
    os2ip_drop (n := 48) h rfl⟩

/-- The flags and the four limbs of 192 bytes. -/
theorem limbs_eq (h : bytes.length = 192) (hB : os2ip bytes = B) :
    (flagC (bytes.headD 0) = B.testBit 1535 ∧ flagI (bytes.headD 0) = B.testBit 1534 ∧
      flagS (bytes.headD 0) = B.testBit 1533) ∧
    limb bytes 0 = B / 2 ^ 1152 ∧ limb bytes 1 = B / 2 ^ 768 % 2 ^ 384 ∧ limb bytes 2 = B / 2 ^ 384 % 2 ^ 384 ∧
      limb bytes 3 = B % 2 ^ 384 := by
  subst hB
  exact ⟨⟨headD_getLsbD 191 7 h, headD_getLsbD 191 6 h, headD_getLsbD 191 5 h⟩, os2ip_take (m := 48) (n := 144) h rfl,
    os2ip_drop_take (m := 48) (k := 48) (n := 96) h rfl rfl,
    os2ip_drop_take (m := 96) (k := 48) (n := 48) h rfl rfl,
    (congrArg os2ip (List.take_of_length_le (by rw [List.length_drop, h]))).trans
      (os2ip_drop (m := 144) (n := 48) h rfl)⟩

theorem decompress2_eq (h : bytes.length = 96) (hB : os2ip bytes = B) :
    decompress2 bytes = compressedForm (B.testBit 767) (B.testBit 766) (B.testBit 765)
      (B / 2 ^ 384 % 2 ^ 381 == 0 && B % 2 ^ 384 == 0)
      (pointC2 (B / 2 ^ 384 % 2 ^ 381) (B % 2 ^ 384) (B.testBit 765)) := by
  obtain ⟨⟨hc, hi, hs⟩, hx1, hx0⟩ := halves_eq h hB
  rw [compressedForm, Bool.not_and, ← Bool.or_assoc, ← hc, ← hi, ← hs, ← hx1, ← hx0]
  rfl

theorem decodeU1_eq (h : bytes.length = 96) (hB : os2ip bytes = B) :
    decodeU1 bytes = uncompressedForm (B.testBit 767) (B.testBit 766) (B.testBit 765)
      (B / 2 ^ 384 % 2 ^ 381 == 0 && B % 2 ^ 384 == 0) (pointU1 (B / 2 ^ 384 % 2 ^ 381) (B % 2 ^ 384)) := by
  obtain ⟨⟨hc, hi, hs⟩, hx, hy⟩ := halves_eq h hB
  rw [uncompressedForm, Bool.not_and, ← hc, ← hi, ← hs, ← hx, ← hy]
  rfl

theorem decodeU2_eq (h : bytes.length = 192) (hB : os2ip bytes = B) :
    decodeU2 bytes = uncompressedForm (B.testBit 1535) (B.testBit 1534) (B.testBit 1533)
      (B / 2 ^ 1152 % 2 ^ 381 == 0 && B / 2 ^ 768 % 2 ^ 384 == 0 && B / 2 ^ 384 % 2 ^ 384 == 0 && B % 2 ^ 384 == 0)
      (pointU2 (B / 2 ^ 1152 % 2 ^ 381) (B / 2 ^ 768 % 2 ^ 384) (B / 2 ^ 384 % 2 ^ 384) (B % 2 ^ 384)) := by
  obtain ⟨⟨hc, hi, hs⟩, hx1, hx0, hy1, hy0⟩ := limbs_eq h hB
  rw [uncompressedForm, Bool.not_and, Bool.not_and, Bool.not_and, ← hc, ← hi, ← hs, ← hx1, ← hx0, ← hy1, ← hy0]
  rfl

end

/-! The points of the forms. -/

section
variable {x y : Nat} (sgn : Bool)

theorem pointC1_eq (hx : x < fieldP) : pointC1 x sgn = liftX1 (toFp x) sgn := canonical_bind_of_lt _ hx

theorem pointC1_nonCanonical (h : fieldP ≤ x) : pointC1 x sgn = .error (fails .nonCanonicalField) :=
  canonical_bind_refuses (.inl h)

theorem pointU1_eq (hx : x < fieldP) (hy : y < fieldP) : pointU1 x y = checked1 (.aff (toFp x) (toFp y)) := by
  rw [pointU1, canonical_bind_of_lt _ hx, canonical_bind_of_lt _ hy]

theorem pointU1_nonCanonical (h : fieldP ≤ x ∨ fieldP ≤ y) : pointU1 x y = .error (fails .nonCanonicalField) :=
  canonical_bind_refuses (h.imp_right fun hy _ => canonical_bind_refuses (.inl hy))

end

section
variable {x1 x0 y1 y0 : Nat} (sgn : Bool)

theorem pointC2_eq (h1 : x1 < fieldP) (h0 : x0 < fieldP) : pointC2 x1 x0 sgn = liftX2 (mkFp2 x0 x1) sgn := by
  rw [pointC2, canonical_bind_of_lt _ h1, canonical_bind_of_lt _ h0, mkFp2]

theorem pointC2_nonCanonical (h : fieldP ≤ x1 ∨ fieldP ≤ x0) :
    pointC2 x1 x0 sgn = .error (fails .nonCanonicalField) :=
  canonical_bind_refuses (h.imp_right fun h0 _ => canonical_bind_refuses (.inl h0))

theorem pointU2_eq (hx1 : x1 < fieldP) (hx0 : x0 < fieldP) (hy1 : y1 < fieldP) (hy0 : y0 < fieldP) :
    pointU2 x1 x0 y1 y0 = checked2 (.aff (mkFp2 x0 x1) (mkFp2 y0 y1)) := by
  rw [pointU2, canonical_bind_of_lt _ hx1, canonical_bind_of_lt _ hx0, canonical_bind_of_lt _ hy1,
    canonical_bind_of_lt _ hy0, mkFp2, mkFp2]

theorem pointU2_nonCanonical (h : fieldP ≤ x1 ∨ fieldP ≤ x0 ∨ fieldP ≤ y1 ∨ fieldP ≤ y0) :
    pointU2 x1 x0 y1 y0 = .error (fails .nonCanonicalField) :=
  canonical_bind_refuses (h.imp_right fun h _ => canonical_bind_refuses (h.imp_right fun h _ =>
    canonical_bind_refuses (h.imp_right fun h _ => canonical_bind_refuses (.inl h))))

end

/-! The bits and limbs of a code. -/

section
variable {k a r : Nat}

theorem packed_div (hr : r < 2 ^ k) : (2 ^ k * a + r) / 2 ^ k = a := by
  rw [Nat.mul_add_div (Nat.two_pow_pos k), Nat.div_eq_of_lt hr, Nat.add_zero]

theorem packed_mod (hr : r < 2 ^ k) : (2 ^ k * a + r) % 2 ^ k = r := by
  rw [Nat.mul_add_mod, Nat.mod_eq_of_lt hr]

theorem packed_testBit (hr : r < 2 ^ k) (j : Nat) : (2 ^ k * a + r).testBit (k + j) = a.testBit j := by
  rw [Nat.testBit_two_pow_mul_add a hr, if_neg (Nat.not_lt.mpr (Nat.le_add_right k j)), Nat.add_sub_cancel_left]

/-- The limbs of a packed value, from the most significant one on. -/
theorem packed_limbs {x y z e₂ e₃ : Nat} (hy : y < 2 ^ k) (hz : z < 2 ^ k) (hr : r < 2 ^ k) (h₂ : k + k = e₂)
    (h₃ : k + e₂ = e₃) :
    (2 ^ k * (2 ^ k * (2 ^ k * x + y) + z) + r) / 2 ^ e₃ = x ∧
      (2 ^ k * (2 ^ k * (2 ^ k * x + y) + z) + r) / 2 ^ e₂ % 2 ^ k = y ∧
      (2 ^ k * (2 ^ k * (2 ^ k * x + y) + z) + r) / 2 ^ k % 2 ^ k = z ∧
      (2 ^ k * (2 ^ k * (2 ^ k * x + y) + z) + r) % 2 ^ k = r := by
  subst h₂ h₃
  have hdiv₂ : (2 ^ k * (2 ^ k * (2 ^ k * x + y) + z) + r) / 2 ^ (k + k) = 2 ^ k * x + y := by
    rw [pow_add, ← Nat.div_div_eq_div_mul, packed_div hr, packed_div hz]
  refine ⟨?_, by rw [hdiv₂, packed_mod hy], by rw [packed_div hr, packed_mod hz], packed_mod hr⟩
  rw [Nat.add_comm k (k + k), pow_add _ (k + k), ← Nat.div_div_eq_div_mul, hdiv₂, packed_div hy]

/-- The flags of a compressed point: compression set, infinity clear, and the sign. -/
theorem packed_flags (hr : r < 2 ^ k) (b : Bool) :
    (2 ^ k * (4 + b.toNat) + r).testBit (k + 2) = true ∧ (2 ^ k * (4 + b.toNat) + r).testBit (k + 1) = false ∧
      (2 ^ k * (4 + b.toNat) + r).testBit (k + 0) = b := by
  rw [packed_testBit hr, packed_testBit hr, packed_testBit hr]
  cases b <;> decide

end

theorem val_lt_flags (x : Fp) : x.val < 2 ^ 381 := x.isLt.trans fieldP_lt_two_pow

theorem val_lt_limb (x : Fp) : x.val < 2 ^ 384 := (val_lt_flags x).trans (by decide +kernel)

theorem testBit_of_lt_two_pow {n k i : Nat} (h : n < 2 ^ k) (hi : k ≤ i) : n.testBit i = false :=
  Nat.testBit_lt_two_pow (h.trans_le (Nat.pow_le_pow_right Nat.two_pos hi))

/-- The flag bits of an uncompressed coordinate are clear. -/
theorem val_testBit (x : Fp) {i : Nat} (hi : 381 ≤ i) : x.val.testBit i = false :=
  testBit_of_lt_two_pow (val_lt_flags x) hi

theorem codeC1_aff (x y : Fp) : codeC1 (.aff x y) = 2 ^ 381 * (4 + (sign1 y).toNat) + x.val := by
  rw [← flagged_eq, codeC1]
  simp only [sign1_iff]

theorem limb_eq : 256 ^ 48 = 2 ^ 384 := by decide +kernel

theorem codeU1_aff (x y : Fp) : codeU1 (.aff x y) = 2 ^ 384 * x.val + y.val := by
  rw [codeU1, limb_eq, Nat.mul_comm]

theorem codeC2_aff (x y : Fp2) :
    codeC2 (.aff x y) = 2 ^ 384 * (2 ^ 381 * (4 + (sign2 y).toNat) + x.c1.val) + x.c0.val := by
  rw [← flagged_eq, codeC2, signBit2_eq, ite_mul, Nat.one_mul, Nat.zero_mul, limb_eq, Nat.mul_comm]

theorem codeU2_aff (x y : Fp2) : codeU2 (.aff x y) =
    2 ^ 384 * (2 ^ 384 * (2 ^ 384 * x.c1.val + x.c0.val) + y.c1.val) + y.c0.val := by
  rw [codeU2, limb_eq]
  simp only [Nat.mul_comm (2 ^ 384)]

/-! Each decoder gives back the valid point its bytes encode. -/

section
variable {bytes : List Byte}

theorem decompress1_of_code {p : Point Fp} (h : os2ip bytes = codeC1 p) (hc : OnCurve1 p) (hs : InSubgroup1 p) :
    decompress1 bytes = .ok p := by
  rw [decompress1_eq h]
  cases p with
  | O =>
    exact compressedForm_infinity (by decide +kernel) (by decide +kernel) (by decide +kernel) (by decide +kernel)
  | aff x y =>
    obtain ⟨hC, hI, hS⟩ := packed_flags (val_lt_flags x) (sign1 y)
    rw [codeC1_aff, packed_mod (val_lt_flags x), compressedForm_point hC hI, pointC1_eq _ x.isLt, toFp_val]
    exact hS.symm ▸ liftX1_of_valid hc hs

theorem decodeU1_of_code {p : Point Fp} (hlen : bytes.length = 96) (h : os2ip bytes = codeU1 p) (hc : OnCurve1 p)
    (hs : InSubgroup1 p) : decodeU1 bytes = .ok p := by
  rw [decodeU1_eq hlen h]
  cases p with
  | O =>
    exact uncompressedForm_infinity (by decide +kernel) (by decide +kernel) (by decide +kernel) (by decide +kernel)
  | aff x y =>
    have hbit {j : Nat} (hj : 381 ≤ j) : (2 ^ 384 * x.val + y.val).testBit (384 + j) = false :=
      (packed_testBit (val_lt_limb y) j).trans (val_testBit x hj)
    rw [codeU1_aff, packed_div (val_lt_limb y), packed_mod (val_lt_limb y), Nat.mod_eq_of_lt (val_lt_flags x),
      uncompressedForm_point (hbit (j := 383) (by decide)) (hbit (j := 381) (by decide)) (hbit (j := 382) (by decide)),
      pointU1_eq x.isLt y.isLt, toFp_val, toFp_val]
    exact checked1_of_valid hc hs

theorem decompress2_of_code {p : Point Fp2} (hlen : bytes.length = 96) (h : os2ip bytes = codeC2 p)
    (hc : OnCurve2 p) (hs : InSubgroup2 p) : decompress2 bytes = .ok p := by
  rw [decompress2_eq hlen h]
  cases p with
  | O =>
    exact compressedForm_infinity (by decide +kernel) (by decide +kernel) (by decide +kernel) (by decide +kernel)
  | aff x y =>
    have hbit (j : Nat) := packed_testBit (a := 2 ^ 381 * (4 + (sign2 y).toNat) + x.c1.val) (val_lt_limb x.c0) j
    obtain ⟨hC, hI, hS⟩ := packed_flags (val_lt_flags x.c1) (sign2 y)
    rw [codeC2_aff, packed_div (val_lt_limb x.c0), packed_mod (val_lt_limb x.c0), packed_mod (val_lt_flags x.c1),
      compressedForm_point ((hbit 383).trans hC) ((hbit 382).trans hI), pointC2_eq _ x.c1.isLt x.c0.isLt, mkFp2,
      toFp_val, toFp_val]
    exact ((hbit 381).trans hS).symm ▸ liftX2_of_valid hc hs

theorem decodeU2_of_code {p : Point Fp2} (hlen : bytes.length = 192) (h : os2ip bytes = codeU2 p)
    (hc : OnCurve2 p) (hs : InSubgroup2 p) : decodeU2 bytes = .ok p := by
  rw [decodeU2_eq hlen h]
  cases p with
  | O =>
    exact uncompressedForm_infinity (by decide +kernel) (by decide +kernel) (by decide +kernel) (by decide +kernel)
  | aff x y =>
    have hbit {j : Nat} (hj : 381 ≤ j) :
        (2 ^ 384 * (2 ^ 384 * (2 ^ 384 * x.c1.val + x.c0.val) + y.c1.val) + y.c0.val).testBit
          (384 + (384 + (384 + j))) = false := by
      rw [packed_testBit (val_lt_limb _), packed_testBit (val_lt_limb _), packed_testBit (val_lt_limb _)]
      exact val_testBit _ hj
    obtain ⟨hx1, hx0, hy1, hy0⟩ := packed_limbs (x := x.c1.val) (e₂ := 768) (e₃ := 1152) (val_lt_limb x.c0)
      (val_lt_limb y.c1) (val_lt_limb y.c0) rfl rfl
    rw [codeU2_aff, hx1, hx0, hy1, hy0, Nat.mod_eq_of_lt (val_lt_flags x.c1),
      uncompressedForm_point (hbit (j := 383) (by decide)) (hbit (j := 381) (by decide)) (hbit (j := 382) (by decide)),
      pointU2_eq x.c1.isLt x.c0.isLt y.c1.isLt y.c0.isLt, mkFp2, mkFp2, toFp_val, toFp_val, toFp_val, toFp_val]
    exact checked2_of_valid hc hs

end

end Sys2Proof.Machine
end

section
/-! PROOFS. The point loads (spec/45_g1.md R335, R336; spec/46_g2.md R378, R379): the access comes first, and then the
decoder of the bytes answers the point or refuses. -/

namespace Sys2Proof.Machine

open Sys2Proof

/-! A load and its decoder. -/

section
variable {i : Instr} {s : State} {a : RegIdx}

/-- A meaning that computes a value and writes it to `g[a]`, where the computation answers. -/
theorem runs_writeG_of_ok {r : Res (Point Fp)} {v : Point Fp} (hr : r = .ok v)
    (h : exec i s = retire s (r >>= fun v => .ok (writeG s a v))) :
    Runs i s { g := [a] } (fun u => readG u a = v) :=
  runs_writeG (by rw [h, hr, res_ok_bind]) fun _ hu => hu

/-- A meaning that computes a value and writes it to `h[a]`, where the computation answers. -/
theorem runs_writeH_of_ok {r : Res (Point Fp2)} {v : Point Fp2} (hr : r = .ok v)
    (h : exec i s = retire s (r >>= fun v => .ok (writeH s a v))) :
    Runs i s { h := [a] } (fun u => readH u a = v) :=
  runs_writeH (by rw [h, hr, res_ok_bind]) fun _ hu => hu

end

theorem bytesAt_length (s : State) (addr : Word) (n : Nat) : (bytesAt s addr n).length = n := readBytes_length _ _ _

section
variable {s : State} (a : RegIdx) {b : RegIdx} {imm : BitVec 16}

theorem g1Ldc_exec (hin : (effAddr s b imm).toNat + 48 ≤ Config.dmemBytes) :
    exec (.g1Ldc a b imm) s = retire s
      (decompress1 (bytesAt s (effAddr s b imm) 48) >>= fun v => .ok (writeG s a v)) :=
  (exec_of_load (i := .g1Ldc a b imm) rfl (fits_of_le hin) :)

theorem g1Ldu_exec (hin : (effAddr s b imm).toNat + 96 ≤ Config.dmemBytes) :
    exec (.g1Ldu a b imm) s = retire s
      (decodeU1 (bytesAt s (effAddr s b imm) 96) >>= fun v => .ok (writeG s a v)) :=
  (exec_of_load (i := .g1Ldu a b imm) rfl (fits_of_le hin) :)

theorem g2Ldc_exec (hin : (effAddr s b imm).toNat + 96 ≤ Config.dmemBytes) :
    exec (.g2Ldc a b imm) s = retire s
      (decompress2 (bytesAt s (effAddr s b imm) 96) >>= fun v => .ok (writeH s a v)) :=
  (exec_of_load (i := .g2Ldc a b imm) rfl (fits_of_le hin) :)

theorem g2Ldu_exec (hin : (effAddr s b imm).toNat + 192 ≤ Config.dmemBytes) :
    exec (.g2Ldu a b imm) s = retire s
      (decodeU2 (bytesAt s (effAddr s b imm) 192) >>= fun v => .ok (writeH s a v)) :=
  (exec_of_load (i := .g2Ldu a b imm) rfl (fits_of_le hin) :)

end

/-- Settles O45: each decoder gives back the point its bytes encode. -/
theorem pointLoadsInvertTheEncodings : Obligations.PointLoadsInvertTheEncodings := by
  refine ⟨fun a b imm => ⟨rfl, rfl, rfl, rfl⟩, fun s a b imm p q hp hp' hq hq' => ⟨fun hin hv => ?_, fun hin hv => ?_,
    fun hin hv => ?_, fun hin hv => ?_⟩⟩
  · exact runs_writeG_of_ok (decompress1_of_code hv hp hp') (g1Ldc_exec a hin)
  · exact runs_writeG_of_ok (decodeU1_of_code (bytesAt_length _ _ _) hv hp hp') (g1Ldu_exec a hin)
  · exact runs_writeH_of_ok (decompress2_of_code (bytesAt_length _ _ _) hv hq hq') (g2Ldc_exec a hin)
  · exact runs_writeH_of_ok (decodeU2_of_code (bytesAt_length _ _ _) hv hq hq') (g2Ldu_exec a hin)

/-! What the decoders refuse, check by check. `B` is the integer of the bytes. -/

theorem two_zeros_eq_false {x y : Nat} (h : x ≠ 0 ∨ y ≠ 0) : (x == 0 && y == 0) = false := by
  simpa [imp_iff_not_or] using h

theorem four_zeros_eq_false {x y z w : Nat} (h : x ≠ 0 ∨ y ≠ 0 ∨ z ≠ 0 ∨ w ≠ 0) :
    (x == 0 && y == 0 && z == 0 && w == 0) = false := by
  simpa [imp_iff_not_or, or_assoc] using h

section
variable {x : Nat} {sgn : Bool}

theorem pointC1_not_onCurve (hx : x < fieldP) (h : ¬∃ y : Fp, y.val * y.val % fieldP = (x ^ 3 + 4) % fieldP) :
    pointC1 x sgn = .error (fails .notOnCurve) := by
  rw [pointC1_eq _ hx]
  exact liftX1_of_no_root _ (by rwa [val_curveRhs_toFp])

theorem pointC1_not_inSubgroup {y : Fp} (hx : x < fieldP) (h : y.val * y.val % fieldP = (x ^ 3 + 4) % fieldP)
    (hs : sgn = true ↔ (fieldP - 1) / 2 < y.val) (hsub : ¬InSubgroup1 (.aff (toFp x) y)) :
    pointC1 x sgn = .error (fails .notInSubgroup) := by
  obtain rfl : sgn = sign1 y := Bool.eq_iff_iff.mpr (hs.trans (sign1_iff y).symm)
  have hcurve : OnCurve1 (.aff (toFp x) y) := by
    rw [onCurve1_aff_iff, ← mul_mod_eq_val_iff, val_curveRhs_toFp, h]
  rw [pointC1_eq _ hx, liftX1_of_not_inSubgroup hcurve hsub]

end

section
variable {x1 x0 : Nat} {sgn : Bool}

theorem pointC2_not_onCurve (h1 : x1 < fieldP) (h0 : x0 < fieldP) (h : ¬∃ y, OnCurve2 (.aff (mkFp2 x0 x1) y)) :
    pointC2 x1 x0 sgn = .error (fails .notOnCurve) := by
  rw [pointC2_eq _ h1 h0, liftX2_of_no_root _ h]

theorem pointC2_not_inSubgroup {y : Fp2} (h1 : x1 < fieldP) (h0 : x0 < fieldP)
    (h : OnCurve2 (.aff (mkFp2 x0 x1) y)) (hs : sgn = true ↔ signBit2 y = 1)
    (hsub : ¬InSubgroup2 (.aff (mkFp2 x0 x1) y)) : pointC2 x1 x0 sgn = .error (fails .notInSubgroup) := by
  obtain rfl : sgn = sign2 y := Bool.eq_iff_iff.mpr (hs.trans (sign2_iff y).symm)
  rw [pointC2_eq _ h1 h0, liftX2_of_not_inSubgroup h hsub]

end

/-! Exceptions of the loads. -/

section
variable {s : State} (a : RegIdx) {b : RegIdx} {imm : BitVec 16} {c : Cause}

theorem g1Ldc_traps (hin : (effAddr s b imm).toNat + 48 ≤ Config.dmemBytes) {B : Nat}
    (hB : intAt s (effAddr s b imm) 48 = B)
    (h : compressedForm (B.testBit 383) (B.testBit 382) (B.testBit 381) (B % 2 ^ 381 == 0)
      (pointC1 (B % 2 ^ 381) (B.testBit 381)) = .error (fails c)) : Traps (.g1Ldc a b imm) s c 0 :=
  traps_of_error ((decompress1_eq hB).trans h) (g1Ldc_exec a hin)

theorem g2Ldc_traps (hin : (effAddr s b imm).toNat + 96 ≤ Config.dmemBytes) {B : Nat}
    (hB : intAt s (effAddr s b imm) 96 = B)
    (h : compressedForm (B.testBit 767) (B.testBit 766) (B.testBit 765)
      (B / 2 ^ 384 % 2 ^ 381 == 0 && B % 2 ^ 384 == 0)
      (pointC2 (B / 2 ^ 384 % 2 ^ 381) (B % 2 ^ 384) (B.testBit 765)) = .error (fails c)) :
    Traps (.g2Ldc a b imm) s c 0 :=
  traps_of_error ((decompress2_eq (bytesAt_length _ _ _) hB).trans h) (g2Ldc_exec a hin)

theorem g1Ldu_traps (hin : (effAddr s b imm).toNat + 96 ≤ Config.dmemBytes) {B : Nat}
    (hB : intAt s (effAddr s b imm) 96 = B)
    (h : uncompressedForm (B.testBit 767) (B.testBit 766) (B.testBit 765)
      (B / 2 ^ 384 % 2 ^ 381 == 0 && B % 2 ^ 384 == 0) (pointU1 (B / 2 ^ 384 % 2 ^ 381) (B % 2 ^ 384)) =
        .error (fails c)) : Traps (.g1Ldu a b imm) s c 0 :=
  traps_of_error ((decodeU1_eq (bytesAt_length _ _ _) hB).trans h) (g1Ldu_exec a hin)

theorem g2Ldu_traps (hin : (effAddr s b imm).toNat + 192 ≤ Config.dmemBytes) {B : Nat}
    (hB : intAt s (effAddr s b imm) 192 = B)
    (h : uncompressedForm (B.testBit 1535) (B.testBit 1534) (B.testBit 1533)
      (B / 2 ^ 1152 % 2 ^ 381 == 0 && B / 2 ^ 768 % 2 ^ 384 == 0 && B / 2 ^ 384 % 2 ^ 384 == 0 && B % 2 ^ 384 == 0)
      (pointU2 (B / 2 ^ 1152 % 2 ^ 381) (B / 2 ^ 768 % 2 ^ 384) (B / 2 ^ 384 % 2 ^ 384) (B % 2 ^ 384)) =
        .error (fails c)) : Traps (.g2Ldu a b imm) s c 0 :=
  traps_of_error ((decodeU2_eq (bytesAt_length _ _ _) hB).trans h) (g2Ldu_exec a hin)

end

/-- Settles O46: the forms check in the order of the rules, and each premise leaves out what an earlier check refuses. -/
theorem pointLoadsRefuse : Obligations.PointLoadsRefuse := by
  refine ⟨fun a b imm => ⟨rfl, rfl, rfl, rfl⟩, fun s a b imm => ?_, fun s a b imm => ?_⟩
  · refine ⟨fun hout => traps_load rfl (not_fits_of_lt (by decide) hout), fun hin => ⟨fun hc => ?_, fun hc hi h => ?_,
      fun hc hi => ⟨fun hx => ?_, fun hx hno => ?_, fun y hx hy hs hsub => ?_⟩⟩,
      fun hout => traps_load rfl (not_fits_of_lt (by decide) hout), fun hin => ⟨fun hc => ?_, fun hc hi h => ?_,
      fun hc hi => ⟨fun hx => ?_, fun h1 h0 hno => ?_, fun y h1 h0 hy hs hsub => ?_⟩⟩⟩
    · exact g1Ldc_traps a hin rfl (compressedForm_refuses_flag hc)
    · exact g1Ldc_traps a hin rfl (compressedForm_refuses_infinity hc hi (h.imp_right beq_false_of_ne))
    · exact g1Ldc_traps a hin rfl ((compressedForm_point hc hi).trans (pointC1_nonCanonical _ hx))
    · exact g1Ldc_traps a hin rfl ((compressedForm_point hc hi).trans (pointC1_not_onCurve hx hno))
    · exact g1Ldc_traps a hin rfl ((compressedForm_point hc hi).trans (pointC1_not_inSubgroup hx hy hs hsub))
    · exact g2Ldc_traps a hin rfl (compressedForm_refuses_flag hc)
    · exact g2Ldc_traps a hin rfl (compressedForm_refuses_infinity hc hi (h.imp_right two_zeros_eq_false))
    · exact g2Ldc_traps a hin rfl ((compressedForm_point hc hi).trans (pointC2_nonCanonical _ hx))
    · exact g2Ldc_traps a hin rfl ((compressedForm_point hc hi).trans (pointC2_not_onCurve h1 h0 hno))
    · exact g2Ldc_traps a hin rfl ((compressedForm_point hc hi).trans (pointC2_not_inSubgroup h1 h0 hy hs hsub))
  · refine ⟨fun hout => traps_load rfl (not_fits_of_lt (by decide) hout), fun hin => ⟨fun h => ?_, fun hc hs =>
      ⟨fun hi h => ?_, fun hi => ⟨fun h => ?_, fun hx hy => ⟨fun hno => ?_, fun hcurve hsub => ?_⟩⟩⟩⟩,
      fun hout => traps_load rfl (not_fits_of_lt (by decide) hout), fun hin => ⟨fun h => ?_, fun hc hs =>
      ⟨fun hi h => ?_, fun hi => ⟨fun h => ?_, fun hx1 hx0 hy1 hy0 => ⟨fun hno => ?_, fun hcurve hsub => ?_⟩⟩⟩⟩⟩
    · exact g1Ldu_traps a hin rfl (uncompressedForm_refuses_flag h)
    · exact g1Ldu_traps a hin rfl (uncompressedForm_refuses_infinity hc hs hi (two_zeros_eq_false h))
    · exact g1Ldu_traps a hin rfl ((uncompressedForm_point hc hs hi).trans (pointU1_nonCanonical h))
    · exact g1Ldu_traps a hin rfl ((uncompressedForm_point hc hs hi).trans
        ((pointU1_eq hx hy).trans (checked1_of_not_onCurve hno)))
    · exact g1Ldu_traps a hin rfl ((uncompressedForm_point hc hs hi).trans
        ((pointU1_eq hx hy).trans (checked1_of_not_inSubgroup hcurve hsub)))
    · exact g2Ldu_traps a hin rfl (uncompressedForm_refuses_flag h)
    · exact g2Ldu_traps a hin rfl (uncompressedForm_refuses_infinity hc hs hi (four_zeros_eq_false h))
    · exact g2Ldu_traps a hin rfl ((uncompressedForm_point hc hs hi).trans (pointU2_nonCanonical h))
    · exact g2Ldu_traps a hin rfl ((uncompressedForm_point hc hs hi).trans
        ((pointU2_eq hx1 hx0 hy1 hy0).trans (checked2_of_not_onCurve hno)))
    · exact g2Ldu_traps a hin rfl ((uncompressedForm_point hc hs hi).trans
        ((pointU2_eq hx1 hx0 hy1 hy0).trans (checked2_of_not_inSubgroup hcurve hsub)))

end Sys2Proof.Machine
end

section
/-! PROOFS. The line steps of the Miller loop (spec/47_pairing.md R402, R403): their components in the arithmetic of the
field Fp2, and the double and the sum that the running points represent. -/

namespace Sys2Proof.Machine

open Sys2Proof

/-! The steps in the field Fp2. -/

theorem mkFp2_eq_natCast (n : Nat) :
    letI := fieldFp2
    mkFp2 n 0 = n :=
  (natCast_fp2 n).symm

theorem two_ne_zero_fp2 :
    letI := fieldFp2
    (2 : Fp2) ≠ 0 := by
  let := fieldFp2
  rw [← Nat.cast_two, ← mkFp2_eq_natCast]
  change mkFp2 2 0 ≠ zero2
  decide +kernel

/-- The coefficient of R402 is `3·b2`. -/
theorem mkFp2_twelve_eq :
    letI := fieldFp2
    mkFp2 12 12 = 3 * mkFp2 4 4 := by
  let := fieldFp2
  change mkFp2 12 12 = ((3 : Nat) : Fp2) * mkFp2 4 4
  rw [← mkFp2_eq_natCast]
  decide +kernel

/-- `INV2` halves (R18). -/
theorem qMulf_inv2 (a : Fp2) :
    letI := fieldFp2
    qMulf a inv2 = 2⁻¹ * a := by
  let := fieldFp2
  have hhalf : (inv2.val : Fp2) = 2⁻¹ := by
    refine eq_inv_of_mul_eq_one_left ?_
    rw [← Nat.cast_two, ← mkFp2_eq_natCast, ← mkFp2_eq_natCast]
    change qMul (mkFp2 inv2.val 0) (mkFp2 2 0) = one2
    decide +kernel
  calc qMulf a inv2 = qMulf a (toFp inv2.val) := by rw [toFp_val]
    _ = inv2.val * a := qMulf_toFp a inv2.val
    _ = 2⁻¹ * a := by rw [hhalf]

/-- The doubling step (R402), with the square of the sum multiplied out. -/
theorem dblStep_eq (rx ry rz : Fp2) :
    letI := fieldFp2
    let t0 := ry * ry
    let t2 := mkFp2 12 12 * (rz * rz)
    let t4 := 2 * (ry * rz)
    dblStep (rx, ry, rz) =
      ((2⁻¹ * ((t0 - 3 * t2) * rx * ry), (2⁻¹ * (t0 + 3 * t2)) ^ 2 - 3 * (t2 * t2), t0 * t4),
        (t2 - t0, 3 * (rx * rx), -t4)) := by
  let := fieldFp2
  have hthree (a : Fp2) : qMulf a (toFp 3) = 3 * a := qMulf_toFp a 3
  have hcross : qSub (qSub (qSqr (qAdd ry rz)) (qSqr rz)) (qSqr ry) = 2 * (ry * rz) := by
    change (ry + rz) * (ry + rz) - rz * rz - ry * ry = 2 * (ry * rz)
    ring
  simp only [dblStep, hthree, qMulf_inv2, hcross, sq]
  rfl

/-- The addition step (R403). -/
theorem addStep_eq (rx ry rz qx qy : Fp2) :
    letI := fieldFp2
    let t0 := ry - qy * rz
    let t1 := rx - qx * rz
    let t3 := t1 * (t1 * t1)
    let t4 := t1 * t1 * rx
    let t5 := t3 - (t4 + t4) + t0 * t0 * rz
    addStep (rx, ry, rz) qx qy =
      ((t1 * t5, (t4 - t5) * t0 - t3 * ry, rz * t3), (t0 * qx - t1 * qy, -t0, t1)) := by
  let := fieldFp2
  have hcube (a : Fp2) : qMul (qSqr a) a = a * (a * a) := qRing_mul_comm _ _
  simp only [addStep, hcube, qMulf_two]
  rfl

/-! The running point. -/

theorem toAffine_opsFp2_of_eq_mul {rx ry rz x y : Fp2} :
    letI := fieldFp2
    rz ≠ 0 → rx = x * rz → ry = y * rz → toAffine opsFp2 rx ry rz = .aff x y := by
  let := fieldFp2
  rintro hz rfl rfl
  exact congrArg₂ Point.aff (mul_inv_cancel_right₀ hz x) (mul_inv_cancel_right₀ hz y)

/-- A triple with `Rz ≠ 0` is its class scaled by `Rz`. -/
theorem exists_eq_mul_of_ne_zero (rx ry : Fp2) {rz : Fp2} (hz : rz ≠ zero2) :
    letI := fieldFp2
    ∃ x y, rx = x * rz ∧ ry = y * rz ∧ toAffine opsFp2 rx ry rz = .aff x y :=
  have hx := (quotient2_mul rx hz).symm
  have hy := (quotient2_mul ry hz).symm
  ⟨_, _, hx, hy, toAffine_opsFp2_of_eq_mul hz hx hy⟩

theorem opsFp2_scale (n : Nat) (a : Fp2) :
    letI := fieldFp2
    opsFp2.scale n a = n * a :=
  qMulf_toFp a n

/-- The double of a point with `y ≠ 0`, by the slope of its tangent. -/
theorem exists_ptDbl_eq {x y : Fp2} (hy : y ≠ zero2) :
    letI := fieldFp2
    ∃ l x3 y3, ptDbl opsFp2 (.aff x y) = .aff x3 y3 ∧ l * (2 * y) = 3 * (x * x) ∧
      x3 = l * l - 2 * x ∧ y3 = l * (x - x3) - y := by
  obtain ⟨l, x3, y3, hdbl, hslope, hx3, hy3⟩ := (ptDbl_doublesTo divides_opsFp2 (.aff x y)).2 hy
  rw [opsFp2_scale, opsFp2_scale] at hslope
  rw [opsFp2_scale] at hx3
  exact ⟨l, x3, y3, hdbl, hslope, hx3, hy3⟩

/-- The sum of two points with different `x`, by the slope of their chord. -/
theorem exists_ptAdd_eq {x1 y1 x2 y2 : Fp2} (hx : x1 ≠ x2) :
    letI := fieldFp2
    ∃ l x3 y3, ptAdd opsFp2 (.aff x1 y1) (.aff x2 y2) = .aff x3 y3 ∧ l * (x2 - x1) = y2 - y1 ∧
      x3 = l * l - x1 - x2 ∧ y3 = l * (x1 - x3) - y1 := by
  obtain ⟨_, _, hchord⟩ := ptAdd_addsTo divides_opsFp2 (.aff x1 y1) (.aff x2 y2)
  exact hchord hx

section
variable {R : Type} [CommRing R] {x y b l : R} (hcurve : y * y = x * x * x + b) (hslope : l * (2 * y) = 3 * (x * x))
include hcurve hslope

/-- The `x` of the double on `y² = x³ + b`, free of the slope `l`. -/
theorem slope_double_x : (l * l - 2 * x) * (4 * y ^ 2) = x * (y ^ 2 - 9 * b) := by
  linear_combination (2 * y * l + 3 * x ^ 2) * hslope - 9 * x * hcurve

/-- The `y` of the double, free of the slope. -/
theorem slope_double_y : (l * (x - (l * l - 2 * x)) - y) * (8 * y ^ 3) = y ^ 4 + 18 * b * y ^ 2 - 27 * b ^ 2 := by
  linear_combination (12 * x * y ^ 2 - (2 * y * l) ^ 2 - 3 * x ^ 2 * (2 * y * l) - 9 * x ^ 4) * hslope -
    (9 * y ^ 2 + 27 * b - 27 * x ^ 3) * hcurve

end

/-- The new running point is the double of `(x, y)`, scaled by `2·y³·Rz⁴`. -/
theorem dblStep_represents_double {x y rz : Fp2} :
    letI := fieldFp2
    rz ≠ 0 → y ≠ 0 → OnCurve2 (.aff x y) →
      let n := (dblStep (x * rz, y * rz, rz)).1
      n.2.2 ≠ 0 ∧ toAffine opsFp2 n.1 n.2.1 n.2.2 = ptDbl opsFp2 (.aff x y) := by
  let := fieldFp2
  intro hz hy hcurve
  obtain ⟨l, x3, y3, hdbl, hslope, rfl, rfl⟩ := exists_ptDbl_eq (x := x) hy
  have hx3 := slope_double_x hcurve hslope
  have hy3 := slope_double_y hcurve hslope
  have hhalf : 2 * (2 : Fp2)⁻¹ = 1 := mul_inv_cancel₀ two_ne_zero_fp2
  have hscale : y * rz * (y * rz) * (2 * (y * rz * rz)) ≠ 0 := by
    simp [hy, hz, two_ne_zero_fp2]
  simp only [hdbl, dblStep_eq, mkFp2_twelve_eq]
  refine ⟨hscale, toAffine_opsFp2_of_eq_mul hscale ?_ ?_⟩
  · linear_combination (l * l - 2 * x) * (2 * y ^ 3 * rz ^ 4) * hhalf - 2⁻¹ * y * rz ^ 4 * hx3
  · linear_combination (2 * 2⁻¹ + 1) * (27 * mkFp2 4 4 ^ 2 * rz ^ 4 +
      (l * (x - (l * l - 2 * x)) - y) * (2 * y ^ 3 * rz ^ 4)) * hhalf - 2⁻¹ ^ 2 * rz ^ 4 * hy3

/-- The new running point is the sum of `(x, y)` and `(qx, qy)`, scaled by `Rz⁴·(x - qx)³`. -/
theorem addStep_represents_sum {x y rz qx qy : Fp2} :
    letI := fieldFp2
    rz ≠ 0 → x ≠ qx →
      let n := (addStep (x * rz, y * rz, rz) qx qy).1
      n.2.2 ≠ 0 ∧ toAffine opsFp2 n.1 n.2.1 n.2.2 = ptAdd opsFp2 (.aff x y) (.aff qx qy) := by
  let := fieldFp2
  intro hz hx
  obtain ⟨l, x3, y3, hadd, hslope, rfl, rfl⟩ := exists_ptAdd_eq (y1 := y) (y2 := qy) hx
  have ht0 : y * rz - qy * rz = l * (x * rz - qx * rz) := by linear_combination rz * hslope
  have ht1 : x * rz - qx * rz ≠ 0 := by
    rw [← sub_mul]
    exact mul_ne_zero (sub_ne_zero.mpr hx) hz
  have hscale := mul_ne_zero hz (mul_ne_zero ht1 (mul_ne_zero ht1 ht1))
  simp only [hadd, addStep_eq, ht0]
  refine ⟨hscale, toAffine_opsFp2_of_eq_mul hscale ?_ ?_⟩ <;> ring

/-- Settles O49: the components are those of the steps in the field, and for the running point each triple is written as
its class scaled by `Rz`. -/
theorem lineStepsFollowTheCurve : Obligations.LineStepsFollowTheCurve := by
  let := fieldFp2
  refine fun rx ry rz qx qy => ⟨?_, ?_, fun hz hy hc => ?_, fun hz hne => ?_⟩
  · have hhalf : 2 * (2 : Fp2)⁻¹ = 1 := mul_inv_cancel₀ two_ne_zero_fp2
    have hfour (v w : Fp2) : 4 * ((2⁻¹ * v) ^ 2 - 3 * w) = v * v - 12 * w := by
      linear_combination (2 * 2⁻¹ + 1) * v ^ 2 * hhalf
    simp only [dblStep_eq, mkFp2_eq_natCast]
    exact ⟨rfl, rfl, rfl, mul_inv_cancel_left₀ two_ne_zero_fp2 _, hfour _ _, rfl⟩
  · simp only [addStep_eq]
    exact ⟨rfl, rfl, rfl, rfl, rfl, rfl⟩
  · obtain ⟨x, y, rfl, rfl, haff⟩ := exists_eq_mul_of_ne_zero rx ry hz
    rw [haff] at hc ⊢
    exact dblStep_represents_double hz (left_ne_zero_of_mul hy) hc
  · obtain ⟨x, y, rfl, rfl, haff⟩ := exists_eq_mul_of_ne_zero rx ry hz
    rw [haff]
    exact addStep_represents_sum hz fun hx => hne (congrArg (· * rz) hx)

end Sys2Proof.Machine
end

section
/-! PROOFS. The Miller loop and the pairing instructions (spec/47_pairing.md R401, R404 to R408): the loop over the line
list is one walk that keeps no list, and the check of R401 answers exactly on a pairable pair. -/

namespace Sys2Proof.Machine

open Sys2Proof

/-! The line list and the loop (R404). -/

/-- One triple for each bit, and one more for each set bit. -/
theorem lineLoop_length (qx qy : Fp2) (i : Nat) (r : Triple) :
    (lineLoop qx qy i r).length = i + Nat.count (fun j => xAbs.testBit j = true) i := by
  induction i generalizing r with
  | zero => rfl
  | succ i ih =>
    rw [lineLoop, Nat.count_succ]
    split <;> simp only [List.length_cons, ih] <;> omega

theorem lineCoeffs_length (qx qy : Fp2) : (lineCoeffs qx qy).length = 68 := by
  have hcount : Nat.count (fun j => xAbs.testBit j = true) 63 = 5 := by decide +kernel
  rw [lineCoeffs, lineLoop_length, hcount]

section
variable (px py : Fp) (qx qy : Fp2)

/-- At a set bit the loop takes the triples of a doubling and of an addition from the list. -/
theorem millerLoop_succ_of_set {i : Nat} (h : xAbs.testBit i = true) (d e : Triple) (ell : List Triple) (f : Fp12) :
    millerLoop px py (i + 1) (d :: e :: ell) f =
      let f2 := applyLine px py (applyLine px py f d) e
      millerLoop px py i ell (if i = 0 then f2 else tMul f2 f2) := by
  simp only [millerLoop, h, if_true]
  rfl

/-- At a clear bit it takes the triple of a doubling. -/
theorem millerLoop_succ_of_clear {i : Nat} (h : ¬xAbs.testBit i = true) (d : Triple) (ell : List Triple) (f : Fp12) :
    millerLoop px py (i + 1) (d :: ell) f =
      let f1 := applyLine px py f d
      millerLoop px py i ell (if i = 0 then f1 else tMul f1 f1) := by
  simp only [millerLoop, if_neg h]
  rfl

/-- Over the lines the running point emits, the loop is the walk that makes each line where it applies it. -/
theorem millerLoop_lineLoop_eq_walk {walk : Nat → Triple → Fp12 → Fp12} (hzero : ∀ r f, walk 0 r f = f)
    (hsucc : ∀ i r f, walk (i + 1) r f =
      let d := dblStep r
      let e := addStep d.1 qx qy
      let f1 := applyLine px py f d.2
      let f' := if xAbs.testBit i then applyLine px py f1 e.2 else f1
      walk i (if xAbs.testBit i then e.1 else d.1) (if i = 0 then f' else tMul f' f'))
    (i : Nat) (r : Triple) (f : Fp12) : millerLoop px py i (lineLoop qx qy i r) f = walk i r f := by
  induction i generalizing r f with
  | zero => exact (hzero r f).symm
  | succ i ih =>
    rw [lineLoop, hsucc]
    by_cases hbit : xAbs.testBit i = true
    · simp only [if_pos hbit, millerLoop_succ_of_set px py hbit, ih]
    · simp only [if_neg hbit, millerLoop_succ_of_clear px py hbit, ih]

end

/-- Settles O48: by induction on the bits that are left. -/
theorem millerLoopNeedsNoList : Obligations.MillerLoopNeedsNoList := by
  refine fun px py qx qy walk hzero hsucc => ⟨lineCoeffs_length qx qy, ?_⟩
  rw [millerAff, lineCoeffs, millerLoop_lineLoop_eq_walk px py qx qy hzero hsucc]

/-! The check and the instructions (R401, R405, R407, R408). -/

section
variable {p : Point Fp} {q : Point Fp2}

theorem isO_eq_false_iff {F : Type} (a : Point F) : isO a = false ↔ a ≠ .O := by
  rw [← Bool.not_eq_true, isO_iff]

/-- The tests of R401 together. -/
theorem pairable_iff : Pairable p q ↔ (isO p = false ∧ isO q = false) ∧ (oncurve p = true ∧ insub1 p = true) ∧
    oncurve2 q = true ∧ insub2 q = true := by
  rw [isO_eq_false_iff, isO_eq_false_iff, oncurve_iff, insub1_iff, oncurve2_iff, insub2_iff, Pairable]
  tauto

theorem pairCheck_of_pairable (h : Pairable p q) : pairCheck p q = .ok () := by
  obtain ⟨⟨hp, hq⟩, ⟨hcurve1, hsub1⟩, hcurve2, hsub2⟩ := pairable_iff.mp h
  simp [pairCheck, hp, hq, hcurve1, hsub1, hcurve2, hsub2]

/-- Each test of R401 raises the same cause, so the one that fails first does not show. -/
theorem pairCheck_of_not_pairable (h : ¬Pairable p q) : pairCheck p q = .error (fails .noPairing) := by
  unfold pairCheck
  split_ifs with hO h1 h2
  · rfl
  · rfl
  · rfl
  · simp only [Bool.or_eq_true, decide_eq_true_eq, not_or, Bool.not_eq_true, Bool.not_eq_false] at hO h1 h2
    exact absurd (pairable_iff.mpr ⟨hO, h1, h2⟩) h

theorem pairMl_of_not_pairable (h : ¬Pairable p q) : pairMl p q = .error (fails .noPairing) := by
  unfold pairMl
  rw [pairCheck_of_not_pairable h]

theorem pairFull_of_not_pairable (h : ¬Pairable p q) : pairFull p q = .error (fails .noPairing) := by
  rw [pairFull, pairMl_of_not_pairable h, res_error_bind]

variable {px py : Fp} {qx qy : Fp2} (hp : p = .aff px py) (hq : q = .aff qx qy) (h : Pairable p q)
include hp hq h

theorem pairMl_of_pairable : pairMl p q = .ok (millerAff px py qx qy) := by
  subst hp hq
  rw [pairMl, pairCheck_of_pairable h]

theorem pairFull_of_pairable (hm : millerAff px py qx qy ≠ zero12) :
    pairFull p q = .ok (repMul tMul one12 (millerAff px py qx qy) (3 * ((fieldP ^ 12 - 1) / orderR))) := by
  rw [pairFull, pairMl_of_pairable hp hq h, res_ok_bind, tFinalexp_of_ne_zero hm, tPow_eq_repMul]

end

/-- Settles O47: the check answers exactly on a pairable pair, and the final exponentiation of a non-zero Miller value
is its power (O38). -/
theorem pairingsRunOnValidPoints : Obligations.PairingsRunOnValidPoints := by
  refine ⟨fun a b c => ⟨rfl, rfl⟩, fun s a b c => ⟨fun h => ⟨?_, ?_⟩, fun px py qx qy hp hq h => ⟨?_, fun hm => ?_⟩⟩⟩
  · exact traps_of_error (pairMl_of_not_pairable h) rfl
  · exact traps_of_error (pairFull_of_not_pairable h) rfl
  · exact runs_writeT_of_ok (pairMl_of_pairable hp hq h) rfl fun _ hu => hu
  · exact runs_writeT_of_ok (pairFull_of_pairable hp hq h hm) rfl fun _ hu => hu

end Sys2Proof.Machine
end

section
/-! PROOFS. How a step of the sequencer ends (spec/60_exceptions.md R472, R474, R489 to R491), from the inversion of
`step`, and the printed example words. -/

namespace Sys2Proof.Machine

open Sys2Proof

/-- Settles O3: the decoder evaluates each word. -/
theorem exampleWordsDecode : Obligations.ExampleWordsDecode := by
  unfold Obligations.ExampleWordsDecode
  decide +kernel

/-- Settles O5: the fetch raises before the decoder sees a word (R489), and each fault is taken as it is raised. -/
theorem fetchAndDecodeFaults : Obligations.FetchAndDecodeFaults := by
  intro s hb
  obtain ⟨hout, hfetch⟩ | ⟨hin, _, _, hfetch⟩ | ⟨hin, i, hdec, _⟩ := fetchInstr_cases s
  · exact ⟨fun _ => step_of_fetch_error hb hfetch, fun hin => absurd hout (Nat.not_le.mpr hin)⟩
  · exact ⟨fun hout => absurd hout (Nat.not_le.mpr hin), fun _ _ => step_of_fetch_error hb hfetch⟩
  · exact ⟨fun hout => absurd hout (Nat.not_le.mpr hin), fun _ hno => absurd hdec (hno i)⟩

/-- An instruction that was fetched is the decoded word at `pc`. -/
theorem decode_of_fetchInstr {s : State} {i : Instr} (h : fetchInstr s = .ok i) :
    s.pc.toNat < Config.imemWords ∧ decode (cellsRead s.imem s.pc.toNat) = .ok i := by
  obtain ⟨_, hfetch⟩ | ⟨_, _, _, hfetch⟩ | ⟨hin, j, hdec, hfetch⟩ := fetchInstr_cases s
  · cases hfetch.symm.trans h
  · cases hfetch.symm.trans h
  · cases hfetch.symm.trans h
    exact ⟨hin, hdec⟩

/-- How a step of a BUSY state ends, by the run state it leaves (R44). -/
theorem step_outcome {s u : State} (hb : s.status = .busy) (h : step s = .next u) :
    u.status = .busy ∨
    (u.status = .done ∧ s.pc.toNat < Config.imemWords ∧ decode (cellsRead s.imem s.pc.toNat) = .ok .halt) ∨
    (u.status = .error ∧ ∃ e, Raisable e ∧ u = takeException s e) := by
  obtain ⟨i, hfetch, hex⟩ | ⟨e, he, rfl⟩ := step_inversion hb h
  · cases hex with
    | halts hi =>
      subst hi
      exact .inr (.inl ⟨rfl, decode_of_fetchInstr hfetch⟩)
    | tags => exact .inl hb
    | completes _ hu => exact .inl (hu.control.status.trans hb)
    | raises e he => exact .inr (.inr ⟨rfl, e, he, rfl⟩)
  · exact .inr (.inr ⟨rfl, e, he, rfl⟩)

/-- Settles O7: a step that ends in ERROR has taken an exception of R471, and no other way out of BUSY leads there. -/
theorem runsEndByHaltOrPreciseException : Obligations.RunsEndByHaltOrPreciseException := by
  refine ⟨fun s u hb h => ?_, fun s u hb h herr => ?_⟩
  · obtain hbusy | hdone | ⟨herr, e, _, rfl⟩ := step_outcome hb h
    · exact .inl hbusy
    · exact .inr (.inl hdone)
    · exact .inr (.inr ⟨herr, ecause_ne_zero e.cause⟩)
  · obtain hbusy | ⟨hdone, _⟩ | ⟨_, e, ⟨hcause, hinfo⟩, hu⟩ := step_outcome hb h
    · exact absurd (hbusy.symm.trans herr) (by decide)
    · exact absurd (hdone.symm.trans herr) (by decide)
    · exact ⟨e.cause, e.info, hu, hcause, hinfo⟩

end Sys2Proof.Machine
end

section
/-! PROOFS. The expander and the instructions that load the tag, expand and reduce (spec/48_hash_to_curve.md R421, R422,
R430 to R432): the blocks are the values of one recursion, and each instruction reads the whole message first. -/

namespace Sys2Proof.Machine

open Sys2Proof

/-! The expander (R421). -/

/-- The block `B[i]` of R421, from the block `B[0]`. -/
def expanderBlock (sha : List Byte → List Byte) (m' dst' b0 : List Byte) : Nat → List Byte
  | 0 => b0
  | i + 1 => sha (List.zipWith (· ^^^ ·) m' (expanderBlock sha m' dst' b0 i) ++ [BitVec.ofNat 8 (i + 2)] ++ dst')

theorem i2osp_one (v : Nat) : i2osp v 1 = [BitVec.ofNat 8 v] := by simp [i2osp]

theorem i2osp_two (v : Nat) : i2osp v 2 = [BitVec.ofNat 8 (v / 256), BitVec.ofNat 8 v] := by simp [i2osp]

/-- The `n` blocks after `B[i]`, joined. -/
theorem xmdBlocks_eq_flatMap (sha : List Byte → List Byte) (m' dst' b0 : List Byte) (n i : Nat) :
    xmdBlocks sha m' dst' n (i + 1) (expanderBlock sha m' dst' b0 i) =
      (List.range' (i + 1) n).flatMap (expanderBlock sha m' dst' b0) := by
  induction n generalizing i with
  | zero => rfl
  | succ n ih =>
    rw [List.range'_succ, List.flatMap_cons, ← ih (i + 1), xmdBlocks, i2osp_one]
    rfl

/-- `B[0]` and the blocks after it, cut to the length asked for: where that is zero `B[0]` is cut away as well. -/
theorem take_xmdBlocks (sha : List Byte → List Byte) (m' dst' b0 : List Byte) (len : Nat) :
    (b0 ++ xmdBlocks sha m' dst' ((len + 31) / 32 - 1) 1 b0).take len =
      ((List.range ((len + 31) / 32)).flatMap (expanderBlock sha m' dst' b0)).take len := by
  cases len with
  | zero => rfl
  | succ len =>
    obtain ⟨n, hn⟩ : ∃ n, (len + 1 + 31) / 32 = n + 1 := ⟨len / 32, by omega⟩
    rw [hn, Nat.add_sub_cancel, List.range_eq_range', List.range'_succ, List.flatMap_cons]
    exact congrArg (fun l => (b0 ++ l).take (len + 1)) (xmdBlocks_eq_flatMap sha m' dst' b0 n 0)

/-- Settles O50: the blocks are those of the recursion. -/
theorem expanderFollowsR421 : Obligations.ExpanderFollowsR421 := by
  intro sha msg dst len _ short D' m'
  have hD' : dstPrime sha dst = D' := congrArg (shortDst sha dst ++ ·) (i2osp_one _)
  have hm' : sha (List.replicate 64 0 ++ msg ++ i2osp len 2 ++ [0x00] ++ D') = m' := by rw [i2osp_two]
  refine ⟨expanderBlock sha m' D' (sha (m' ++ [1] ++ D')), rfl, fun _ => rfl, ?_⟩
  rw [xmd, hD', hm']
  exact take_xmdBlocks sha m' D' _ len

/-! The instructions. -/

section
variable {i : Instr} {s : State}

/-- A meaning that checks a length before the rest, where the check passes. -/
theorem exec_of_guard {p : Prop} [Decidable p] {c : Cause} {body : Res State}
    (h : exec i s = retire s (if p then .error (fails c) else body)) (hp : ¬p) : exec i s = retire s body := by
  rw [h, if_neg hp]

theorem traps_of_guard {p : Prop} [Decidable p] {c : Cause} {body : Res State}
    (h : exec i s = retire s (if p then .error (fails c) else body)) (hp : p) : Traps i s c 0 :=
  traps_of_retire (by rw [h, if_pos hp]; rfl)

end

theorem frame_setTag (s : State) (tag : List Byte) : Frame {} s (setTag s tag) where
  r _ _ := rfl
  f _ _ := rfl
  q _ _ := rfl
  s _ _ := rfl
  t _ _ := rfl
  g _ _ := rfl
  h _ _ := rfl
  k _ _ := rfl
  dmem _ _ := rfl
  control := ⟨rfl, rfl, rfl, rfl, rfl, rfl, rfl, rfl⟩

section
variable (s : State) (a b c d : RegIdx)

theorem h2cDst_exec : exec (.h2cDst b c) s = retire s
    (if Config.dstMax < (readR s c).toNat then .error (fails .badLength)
    else memRead s (readR s b) (readR s c).toNat >>= fun tag => .ok (setTag s tag)) := rfl

theorem h2cXmd_exec : exec (.h2cXmd a b c d) s = retire s
    (if Config.xmdMax < (readR s d).toNat then .error (fails .badLength)
    else memRead s (readR s b) (readR s c).toNat >>= fun msg =>
      memWrite s (readR s a) (xmd sha256 msg s.dstBuf (readR s d).toNat)) := rfl

theorem h2cH2f_exec : exec (.h2cH2f a b c d) s = retire s
    (memRead s (readR s c) (readR s d).toNat >>= fun msg =>
      .ok (writeQ (writeQ s a (hashToField sha256 msg s.dstBuf).1) b (hashToField sha256 msg s.dstBuf).2)) := rfl

end

/-- The reduced 64-byte pieces of the expanded message (R422). -/
theorem hashToField_val (sha : List Byte → List Byte) (msg dst : List Byte) :
    let part := fun i => os2ip (((xmd sha msg dst 256).drop (64 * i)).take 64) % fieldP
    (hashToField sha msg dst).1.c0.val = part 0 ∧ (hashToField sha msg dst).1.c1.val = part 1 ∧
    (hashToField sha msg dst).2.c0.val = part 2 ∧ (hashToField sha msg dst).2.c1.val = part 3 :=
  ⟨rfl, rfl, rfl, rfl⟩

section
variable {s : State} (a : RegIdx) {b c d : RegIdx}

theorem h2cDst_runs (hn : (readR s c).toNat ≤ 2048) (hf : Fits (readR s b) (readR s c).toNat) :
    ∃ u, exec (.h2cDst b c) s = .next u ∧ u.pc = s.pc + 1 ∧
      u.dstBuf = bytesAt s (readR s b) (readR s c).toNat ∧ u.dstBuf.length = (readR s c).toNat ∧ Frame {} s u :=
  have hload := exec_of_guard (h2cDst_exec s b c) (Nat.not_lt.mpr hn)
  ⟨_, exec_of_load hload hf, rfl, rfl, bytesAt_length _ _ _, (frame_setTag s _).setPc _⟩

theorem h2cXmd_exec_store (hn : (readR s d).toNat ≤ 8160) (hf : Fits (readR s b) (readR s c).toNat) :
    exec (.h2cXmd a b c d) s = retire s (memWrite s (readR s a)
      (xmd sha256 (bytesAt s (readR s b) (readR s c).toNat) s.dstBuf (readR s d).toNat)) :=
  exec_of_load (exec_of_guard (h2cXmd_exec s a b c d) (Nat.not_lt.mpr hn)) hf

theorem h2cXmd_runs (hn : (readR s d).toNat ≤ 8160) (hf : Fits (readR s b) (readR s c).toNat)
    (hout : Fits (readR s a) (readR s d).toNat) (hm : Memory.wf s.dmem) :
    Runs (.h2cXmd a b c d) s { memAt := (readR s a).toNat, memLen := (readR s d).toNat } (fun u =>
      bytesAt u (readR s a) (readR s d).toNat =
        xmd sha256 (bytesAt s (readR s b) (readR s c).toNat) s.dstBuf (readR s d).toNat) := by
  have hlen := xmd_length sha256 sha256_length (bytesAt s (readR s b) (readR s c).toNat) s.dstBuf (readR s d).toNat
  have hrun := runs_store (post := fun u => bytesAt u (readR s a) (readR s d).toNat =
    xmd sha256 (bytesAt s (readR s b) (readR s c).toNat) s.dstBuf (readR s d).toNat)
    (h2cXmd_exec_store a hn hf)
  rw [hlen] at hrun
  exact hrun hout hm fun _ hu => hu

theorem h2cXmd_traps_store (hn : (readR s d).toNat ≤ 8160) (hf : Fits (readR s b) (readR s c).toNat)
    (hout : ¬Fits (readR s a) (readR s d).toNat) : Traps (.h2cXmd a b c d) s .dmemRange (readR s a) :=
  traps_store (h2cXmd_exec_store a hn hf) (by rwa [xmd_length sha256 sha256_length])

theorem h2cH2f_runs (hf : Fits (readR s c) (readR s d).toNat) :
    Runs (.h2cH2f a b c d) s { q := [a, b] } (fun u =>
      let v := hashToField sha256 (bytesAt s (readR s c) (readR s d).toNat) s.dstBuf
      (a ≠ b → readQ u a = v.1) ∧ readQ u b = v.2) :=
  runs_of_retire (exec_of_load (h2cH2f_exec s a b c d) hf) rfl (frame_writeQ_writeQ s a b _ _)
    ⟨fun hab => by simp [readQ_writeQ_other _ _ _ _ hab], by simp⟩

end

/-- A run with what it establishes weakened. -/
theorem Runs.weaken {i : Instr} {s : State} {w : Writes} {post post' : State → Prop} (h : Runs i s w post)
    (hp : ∀ u, post u → post' u) : Runs i s w post' := by
  obtain ⟨u, hexec, hpc, htag, hframe, hu⟩ := h
  exact ⟨u, hexec, hpc, htag, hframe, hp u hu⟩

/-- Settles O51: the length is checked first, then the read, and for `H2C.XMD` the store of as many bytes as the
expander was asked for. -/
theorem tagAndExpanderInstructions : Obligations.TagAndExpanderInstructions := by
  refine ⟨fun a b c d => ⟨rfl, rfl, rfl⟩, fun s b c => ⟨h2cDst_runs, fun hn => ?_, fun hn => ?_⟩,
    fun s a b c d => ⟨⟨fun hn => ?_, fun hn => ?_, h2cXmd_traps_store a, h2cXmd_runs a⟩, ?_, fun hf => ?_⟩⟩
  · exact traps_of_guard (h2cDst_exec s b c) hn
  · exact traps_load (exec_of_guard (h2cDst_exec s b c) (Nat.not_lt.mpr hn))
  · exact traps_of_guard (h2cXmd_exec s a b c d) hn
  · exact traps_load (exec_of_guard (h2cXmd_exec s a b c d) (Nat.not_lt.mpr hn))
  · exact traps_load (h2cH2f_exec s a b c d)
  · obtain ⟨h0, h1, h2, h3⟩ := hashToField_val sha256 (bytesAt s (readR s c) (readR s d).toNat) s.dstBuf
    refine (h2cH2f_runs a hf).weaken fun u ⟨ha, hb⟩ => ⟨fun hab => ?_, ?_⟩
    · rw [ha hab]
      exact ⟨h0, h1⟩
    · rw [hb]
      exact ⟨h2, h3⟩

end Sys2Proof.Machine
end

section
/-! PROOFS. The simplified SWU map (spec/48_hash_to_curve.md R423, R424, R433). `Z` is no square of Fp2, so neither is
`Z·u²`, and as the product of two values without a root has one, exactly one of the two candidates gives a square. -/

namespace Sys2Proof.Machine

open Sys2Proof

/-! Squares of Fp2. -/

/-- In a finite field the product of two values without a root has one. -/
theorem isSquare_mul_of_not_isSquare {F : Type} [Field F] [Finite F] {a b : F} (ha : ¬IsSquare a) (hb : ¬IsSquare b) :
    IsSquare (a * b) := by
  classical
  have := Fintype.ofFinite F
  have hab : a * b ≠ 0 := mul_ne_zero (fun h => ha (h ▸ IsSquare.zero)) (fun h => hb (h ▸ IsSquare.zero))
  rw [← quadraticChar_one_iff_isSquare hab, map_mul, quadraticChar_neg_one_iff_not_isSquare.mpr ha,
    quadraticChar_neg_one_iff_not_isSquare.mpr hb]
  rfl

theorem finite_fp2 : Finite Fp2 :=
  Finite.of_injective (fun a : Fp2 => (a.c0, a.c1)) fun _ _ h => fp2_ext (congrArg Prod.fst h) (congrArg Prod.snd h)

theorem isSquare_fp2_iff (a : Fp2) :
    letI := fieldFp2
    IsSquare a ↔ ∃ y, qMul y y = a :=
  ⟨fun ⟨y, hy⟩ => ⟨y, hy.symm⟩, fun ⟨y, hy⟩ => ⟨y, hy.symm⟩⟩

/-- `squareRoot2` answers a root wherever there is one (R424). -/
theorem squareRoot2_cases (a : Fp2) :
    (∃ y, squareRoot2 a = some y ∧ qMul y y = a) ∨ ((¬∃ y, qMul y y = a) ∧ squareRoot2 a = none) := by
  by_cases ha : a = zero2
  · exact .inl ⟨zero2, by rw [squareRoot2, if_pos ha], ha ▸ qRing_zero_mul zero2⟩
  · rw [squareRoot2, if_neg ha]
    obtain ⟨x, hx, hok⟩ | ⟨hno, herr⟩ := qSqrt_cases ha
    · have hx0 : x ≠ zero2 := by
        rintro rfl
        exact ha (hx.symm.trans (qRing_zero_mul _))
      exact .inl ⟨_, by rw [hok], (qGreater_qNeg hx0).1.trans hx⟩
    · exact .inr ⟨hno, by rw [herr]⟩

theorem squareRoot2_getD {a : Fp2} (h : ∃ y, qMul y y = a) (d : Fp2) :
    qMul ((squareRoot2 a).getD d) ((squareRoot2 a).getD d) = a := by
  obtain ⟨y, hsome, hy⟩ | ⟨hno, _⟩ := squareRoot2_cases a
  · rw [hsome]
    exact hy
  · exact absurd h hno

/-! The sign (R213). -/

/-- `p` is odd, so of two opposite non-zero residues one is odd. -/
theorem val_fneg_odd_iff {y : Fp} (hy : y.val ≠ 0) : (fneg y).val % 2 = 1 ↔ ¬y.val % 2 = 1 := by
  have hlt := y.isLt
  have hodd : fieldP % 2 = 1 := by decide +kernel
  rw [val_fneg_of_ne_zero hy]
  omega

theorem qSgn0_of_real {y : Fp2} (h : y.c0.val ≠ 0) : qSgn0 y = true ↔ y.c0.val % 2 = 1 := by
  simp [qSgn0_iff, h]

theorem qSgn0_of_imaginary {y : Fp2} (h : y.c0.val = 0) : qSgn0 y = true ↔ y.c1.val % 2 = 1 := by
  simp [qSgn0_iff, h]

theorem qSgn0_qNeg {y : Fp2} (hy : y ≠ zero2) : qSgn0 (qNeg y) = !qSgn0 y := by
  have hflip : qSgn0 (qNeg y) = true ↔ ¬qSgn0 y = true := by
    by_cases h0 : y.c0.val = 0
    · have h1 : y.c1.val ≠ 0 := fun h1 => hy ((fp2_eq_iff_val y zero2).mpr ⟨h0, h1⟩)
      rw [qSgn0_of_imaginary h0, qSgn0_of_imaginary (val_fneg_of_eq_zero h0)]
      exact val_fneg_odd_iff h1
    · have hne : (qNeg y).c0.val ≠ 0 := by
        have hlt := y.c0.isLt
        rw [qNeg_c0, val_fneg_of_ne_zero h0]
        omega
      rw [qSgn0_of_real h0, qSgn0_of_real hne]
      exact val_fneg_odd_iff h0
  rw [Bool.eq_iff_iff, hflip, Bool.not_eq_true, Bool.not_eq_true']

/-- The root with the sign of `u`, of a root `y`. -/
def withSign (u y : Fp2) : Fp2 := if qSgn0 u = qSgn0 y then y else qNeg y

theorem withSign_sq (u y : Fp2) : qMul (withSign u y) (withSign u y) = qMul y y := by
  let := ringFp2
  unfold withSign
  split
  · rfl
  · exact neg_mul_neg y y

theorem withSign_sgn0 (u : Fp2) {y : Fp2} (hy : withSign u y ≠ zero2) : qSgn0 (withSign u y) = qSgn0 u := by
  unfold withSign at hy ⊢
  split at hy <;> rename_i hsgn
  · rw [if_pos hsgn, hsgn]
  · have hy0 : y ≠ zero2 := by
      rintro rfl
      exact hy (by decide +kernel)
    rw [if_neg hsgn, qSgn0_qNeg hy0, Bool.eq_not_of_ne hsgn]

/-! The candidates (R424). -/

theorem sswuA_ne_zero : sswuA ≠ zero2 := by decide +kernel

theorem sswuZA_ne_zero : qMul sswuZ sswuA ≠ zero2 := by decide +kernel

/-- `Z·u²`. -/
def swuScale (u : Fp2) : Fp2 := qMul sswuZ (qMul u u)

/-- The denominator `Z²·u⁴ + Z·u²` of the first candidate. -/
def swuDenominator (u : Fp2) : Fp2 := qAdd (qMul (swuScale u) (swuScale u)) (swuScale u)

theorem sswuX1_of_eq_zero {u : Fp2} (h : swuDenominator u = zero2) :
    sswuX1 u = qMul sswuB (qInvTotal (qMul sswuZ sswuA)) := if_pos h

theorem sswuX1_of_ne_zero {u : Fp2} (h : swuDenominator u ≠ zero2) :
    sswuX1 u = qMul (qMul (qNeg sswuB) (qInvTotal sswuA)) (qAdd one2 (qInvTotal (swuDenominator u))) := if_neg h

theorem sswuX1_mul_of_eq_zero {u : Fp2} (h : swuDenominator u = zero2) :
    qMul (sswuX1 u) (qMul sswuZ sswuA) = sswuB := by
  rw [sswuX1_of_eq_zero h, quotient2_mul _ sswuZA_ne_zero]

theorem sswuX1_mul_of_ne_zero {u : Fp2} (h : swuDenominator u ≠ zero2) :
    qMul (sswuX1 u) (qMul sswuA (swuDenominator u)) = qNeg (qMul sswuB (qAdd (swuDenominator u) one2)) := by
  let := fieldFp2
  rw [sswuX1_of_ne_zero h]
  generalize swuDenominator u = d at h ⊢
  have hA : sswuA * sswuA⁻¹ = 1 := mul_inv_cancel₀ sswuA_ne_zero
  have hd : d * d⁻¹ = 1 := mul_inv_cancel₀ h
  change -sswuB * sswuA⁻¹ * (1 + d⁻¹) * (sswuA * d) = -(sswuB * (d + 1))
  linear_combination -sswuB * (d + d * d⁻¹) * hA - sswuB * hd

/-- The second candidate's value is the first one's times `(Z·u²)³`. -/
theorem gPrime_second_candidate {t x : Fp2} :
    letI := fieldFp2
    x * (sswuA * (t * t + t)) = -(sswuB * (t * t + t + 1)) → gPrime (t * x) = t * gPrime x * (t * t) := by
  let := fieldFp2
  intro hx
  change t * x * (t * x) * (t * x) + sswuA * (t * x) + sswuB =
    t * (x * x * x + sswuA * x + sswuB) * (t * t)
  linear_combination (1 - t) * hx

/-- `Z` is no square (R15). -/
theorem not_isSquare_sswuZ :
    letI := fieldFp2
    ¬IsSquare sswuZ := by
  let := fieldFp2
  rw [isSquare_fp2_iff]
  exact no_root2_of_fpow _ (by decide +kernel)

theorem not_isSquare_swuScale {u : Fp2} (hu : u ≠ zero2) :
    letI := fieldFp2
    ¬IsSquare (swuScale u) := by
  let := fieldFp2
  rintro ⟨r, hr⟩
  refine not_isSquare_sswuZ ⟨r * u⁻¹, ?_⟩
  have hinv : u * u⁻¹ = 1 := mul_inv_cancel₀ hu
  change sswuZ * (u * u) = r * r at hr
  linear_combination (u⁻¹ * u⁻¹) * hr - sswuZ * (u * u⁻¹ + 1) * hinv

theorem exists_root_gPrime_sswuX1_zero : ∃ y, qMul y y = gPrime (sswuX1 zero2) :=
  ⟨(squareRoot2 (gPrime (sswuX1 zero2))).getD zero2, by decide +kernel⟩

/-- `-1` is the square of `u`, the element of spec/42_fp2.md R210. -/
theorem isSquare_neg_one :
    letI := fieldFp2
    IsSquare (-1 : Fp2) := by
  let := fieldFp2
  exact ⟨mkFp2 0 1, by decide +kernel⟩

theorem swuDenominator_ne_zero {u : Fp2} (hu : u ≠ zero2) : swuDenominator u ≠ zero2 := by
  let := fieldFp2
  intro h
  have hfactor : swuScale u * (swuScale u + 1) = 0 := by
    change swuScale u * swuScale u + swuScale u = 0 at h
    linear_combination h
  obtain h0 | h1 := mul_eq_zero.mp hfactor
  · exact not_isSquare_swuScale hu (h0 ▸ IsSquare.zero)
  · exact not_isSquare_swuScale hu (eq_neg_of_add_eq_zero_left h1 ▸ isSquare_neg_one)

/-- Where the first candidate gives no square, the second one does. -/
theorem exists_root_second_candidate {u : Fp2} (h : ¬∃ y, qMul y y = gPrime (sswuX1 u)) :
    ∃ y, qMul y y = gPrime (qMul (swuScale u) (sswuX1 u)) := by
  let := fieldFp2
  have := finite_fp2
  have hu : u ≠ zero2 := by
    rintro rfl
    exact h exists_root_gPrime_sswuX1_zero
  rw [← isSquare_fp2_iff] at h ⊢
  rw [show qMul (swuScale u) (sswuX1 u) = swuScale u * sswuX1 u from rfl,
    gPrime_second_candidate (sswuX1_mul_of_ne_zero (swuDenominator_ne_zero hu))]
  exact (isSquare_mul_of_not_isSquare (not_isSquare_swuScale hu) h).mul (IsSquare.mul_self _)

/-! The map and the instruction (R424, R433). -/

theorem sswu_of_some {u y : Fp2} (h : squareRoot2 (gPrime (sswuX1 u)) = some y) :
    sswu u = .aff (sswuX1 u) (withSign u y) := by
  rw [sswu, h, withSign]

theorem sswu_of_none {u : Fp2} (h : squareRoot2 (gPrime (sswuX1 u)) = none) :
    sswu u = .aff (qMul (swuScale u) (sswuX1 u))
      (withSign u ((squareRoot2 (gPrime (qMul (swuScale u) (sswuX1 u)))).getD zero2)) := by
  rw [sswu, h, withSign, swuScale]

/-- The pair has the first candidate where that one gives a square, the second one where not, and a root of its value
with the sign of `u`. -/
theorem sswu_cases (u : Fp2) :
    ∃ x y, sswu u = .aff x (withSign u y) ∧ qMul y y = gPrime x ∧
      ((∃ z, qMul z z = gPrime (sswuX1 u)) ∧ x = sswuX1 u ∨
        (¬∃ z, qMul z z = gPrime (sswuX1 u)) ∧ x = qMul (swuScale u) (sswuX1 u)) := by
  obtain ⟨y, hsome, hy⟩ | ⟨hno, hnone⟩ := squareRoot2_cases (gPrime (sswuX1 u))
  · exact ⟨_, y, sswu_of_some hsome, hy, .inl ⟨⟨y, hy⟩, rfl⟩⟩
  · exact ⟨_, _, sswu_of_none hnone, squareRoot2_getD (exists_root_second_candidate hno) zero2, .inr ⟨hno, rfl⟩⟩

/-- Settles O52: the first candidate by its denominator, and the pair by whether that candidate gives a square. -/
theorem simplifiedSwuLandsOnTheIsogenousCurve : Obligations.SimplifiedSwuLandsOnTheIsogenousCurve := by
  refine ⟨fun a b => rfl, fun s a b => runs_writeH rfl fun u hu => ?_⟩
  obtain ⟨x, y, hswu, hy, hx⟩ := sswu_cases (readQ s b)
  refine ⟨sswuX1 (readQ s b), x, _, hu.trans hswu, sswuX1_mul_of_eq_zero, sswuX1_mul_of_ne_zero, fun h => ?_,
    fun h => ?_, (withSign_sq _ y).trans hy, withSign_sgn0 _⟩
  · exact (hx.resolve_right fun hno => hno.1 h).2
  · exact (hx.resolve_left fun hyes => h hyes.1).2

end Sys2Proof.Machine
end

section
/-! PROOFS. The isogeny from E′ to E2 (spec/48_hash_to_curve.md R426, R434). Its polynomials satisfy two identities,
which are computed on their coefficients, and with these the image of a pair of E′ satisfies the equation of E2. -/

namespace Sys2Proof.Machine

open Sys2Proof

/-! Polynomials as lists of coefficients, by rising power. -/

/-- The sum, coefficient by coefficient. -/
def polyAdd : List Fp2 → List Fp2 → List Fp2
  | [], l => l
  | k, [] => k
  | c :: k, d :: l => qAdd c d :: polyAdd k l

/-- Each coefficient times `c`. -/
def polyScale (c : Fp2) (l : List Fp2) : List Fp2 := l.map (qMul c)

/-- The product, by the first factor's coefficients. -/
def polyMul : List Fp2 → List Fp2 → List Fp2
  | [], _ => []
  | c :: k, l => polyAdd (polyScale c l) (zero2 :: polyMul k l)

/-- The difference has no coefficient other than zero; the lists may differ in length. -/
def PolyEq (k l : List Fp2) : Prop := ∀ c ∈ polyAdd k (polyScale (qNeg one2) l), c = zero2

section
variable (k l : List Fp2) (c x : Fp2)

theorem poly_polyAdd : poly (polyAdd k l) x = qAdd (poly k x) (poly l x) := by
  let := ringFp2
  induction k generalizing l with
  | nil =>
    rw [polyAdd]
    exact (zero_add (poly l x)).symm
  | cons c k ih =>
    cases l with
    | nil => exact (add_zero (poly (c :: k) x)).symm
    | cons d l =>
      rw [polyAdd, poly, ih]
      change c + d + (poly k x + poly l x) * x = c + poly k x * x + (d + poly l x * x)
      ring

theorem poly_polyScale : poly (polyScale c l) x = qMul c (poly l x) := by
  let := ringFp2
  induction l with
  | nil => exact (mul_zero c).symm
  | cons d l ih =>
    rw [polyScale, List.map_cons, poly, ← polyScale, ih]
    change c * d + c * poly l x * x = c * (d + poly l x * x)
    ring

theorem poly_polyMul : poly (polyMul k l) x = qMul (poly k x) (poly l x) := by
  let := ringFp2
  induction k with
  | nil => exact (zero_mul (poly l x)).symm
  | cons c k ih =>
    rw [polyMul, poly_polyAdd, poly_polyScale, poly, ih]
    change c * poly l x + (0 + poly k x * poly l x * x) = (c + poly k x * x) * poly l x
    ring

end

theorem poly_of_zeros {k : List Fp2} (h : ∀ c ∈ k, c = zero2) (x : Fp2) : poly k x = zero2 := by
  induction k with
  | nil => rfl
  | cons c k ih =>
    obtain ⟨hc, hk⟩ := List.forall_mem_cons.mp h
    rw [poly, hc, ih hk, qRing_zero_mul, qRing_add_zero]

theorem poly_eq_of_polyEq {k l : List Fp2} (h : PolyEq k l) (x : Fp2) : poly k x = poly l x := by
  let := ringFp2
  have hzero := poly_of_zeros h x
  rw [poly_polyAdd, poly_polyScale] at hzero
  change poly k x + -1 * poly l x = 0 at hzero
  linear_combination hzero

/-- The polynomial of four coefficients, as sums of powers. -/
theorem poly_four (c0 c1 c2 c3 x : Fp2) : poly [c0, c1, c2, c3] x =
    qAdd (qAdd c0 (qMul c1 x)) (qAdd (qMul c2 (qMul x x)) (qMul c3 (qMul x (qMul x x)))) := by
  let := ringFp2
  change c0 + (c1 + (c2 + (c3 + 0 * x) * x) * x) * x = c0 + c1 * x + (c2 * (x * x) + c3 * (x * (x * x)))
  ring

/-! The identities of the coefficients (R15, R16). -/

/-- The right-hand side of E′ as a polynomial. -/
def gPrimePoly : List Fp2 := [sswuB, sswuA, zero2, one2]

theorem poly_gPrimePoly (x : Fp2) : poly gPrimePoly x = gPrime x := by
  let := ringFp2
  rw [gPrimePoly, poly_four]
  change sswuB + sswuA * x + (0 * (x * x) + 1 * (x * (x * x))) = x * x * x + sswuA * x + sswuB
  ring

/-- The denominators are the square and the cube of one polynomial. -/
theorem isoYDen_sq_polyEq : PolyEq (polyMul isoYDen isoYDen) (polyMul isoXDen (polyMul isoXDen isoXDen)) := by
  unfold PolyEq
  decide +kernel

theorem isoNum_polyEq : PolyEq (polyMul gPrimePoly (polyMul isoYNum isoYNum))
    (polyAdd (polyMul isoXNum (polyMul isoXNum isoXNum))
      (polyScale b2 (polyMul isoXDen (polyMul isoXDen isoXDen)))) := by
  unfold PolyEq
  decide +kernel

theorem isoYDen_sq (x : Fp2) :
    letI := ringFp2
    poly isoYDen x * poly isoYDen x = poly isoXDen x * (poly isoXDen x * poly isoXDen x) := by
  have h := poly_eq_of_polyEq isoYDen_sq_polyEq x
  simp only [poly_polyMul] at h
  exact h

theorem isoNum_eq (x : Fp2) :
    letI := ringFp2
    gPrime x * (poly isoYNum x * poly isoYNum x) =
      poly isoXNum x * (poly isoXNum x * poly isoXNum x) +
        b2 * (poly isoXDen x * (poly isoXDen x * poly isoXDen x)) := by
  have h := poly_eq_of_polyEq isoNum_polyEq x
  simp only [poly_polyMul, poly_polyAdd, poly_polyScale, poly_gPrimePoly] at h
  exact h

/-! The map and the instruction (R426, R434). -/

section
variable {x : Fp2} (y : Fp2)

theorem iso_of_pole (h : poly isoXDen x = zero2 ∨ poly isoYDen x = zero2) : iso (.aff x y) = .O :=
  if_pos (by simpa using h)

theorem iso_of_no_pole (hx : poly isoXDen x ≠ zero2) (hy : poly isoYDen x ≠ zero2) :
    iso (.aff x y) = .aff (qMul (poly isoXNum x) (qInvTotal (poly isoXDen x)))
      (qMul (qMul y (poly isoYNum x)) (qInvTotal (poly isoYDen x))) :=
  if_neg (by simp [hx, hy])

end

/-- A pair `(n / d, y·m / e)` lies on `y² = x³ + b` when `e² = d³` and the numerators satisfy the equation cleared of
denominators. -/
theorem quotients_on_curve {F : Type} [Field F] {n d m e y g b : F} (hd : d ≠ 0) (he : e * e = d * (d * d))
    (hnum : g * (m * m) = n * (n * n) + b * (d * (d * d))) (hy : y * y = g) :
    y * m * e⁻¹ * (y * m * e⁻¹) = n * d⁻¹ * (n * d⁻¹) * (n * d⁻¹) + b := by
  have hinv : e⁻¹ * e⁻¹ = d⁻¹ * (d⁻¹ * d⁻¹) := by rw [← mul_inv, he, mul_inv, mul_inv]
  have hone : d * d⁻¹ = 1 := mul_inv_cancel₀ hd
  calc y * m * e⁻¹ * (y * m * e⁻¹) = y * y * (m * m) * (e⁻¹ * e⁻¹) := by ring
    _ = (n * (n * n) + b * (d * (d * d))) * (d⁻¹ * (d⁻¹ * d⁻¹)) := by rw [hy, hnum, hinv]
    _ = n * d⁻¹ * (n * d⁻¹) * (n * d⁻¹) + b * (d * d⁻¹) ^ 3 := by ring
    _ = n * d⁻¹ * (n * d⁻¹) * (n * d⁻¹) + b := by rw [hone, one_pow, mul_one]

/-- The image of a pair of E′ lies on E2. -/
theorem onCurve2_iso {x y : Fp2} (h : qMul y y = gPrime x) : OnCurve2 (iso (.aff x y)) := by
  let := fieldFp2
  by_cases hpole : poly isoXDen x = zero2 ∨ poly isoYDen x = zero2
  · rw [iso_of_pole y hpole]
    trivial
  · obtain ⟨hx, hy⟩ := not_or.mp hpole
    rw [iso_of_no_pole y hx hy, onCurve2_aff_iff, curveRhs2]
    have hden := isoYDen_sq x
    have hnum := isoNum_eq x
    generalize poly isoXNum x = n, poly isoXDen x = d, poly isoYNum x = m, poly isoYDen x = e at *
    exact quotients_on_curve (d := d) hx hden hnum h

/-- Settles O53: the statement's sums of powers are the polynomials, and their quotients multiply back. -/
theorem isogenyLandsOnTheCurve : Obligations.IsogenyLandsOnTheCurve := by
  refine ⟨fun a b => rfl, fun s a b => runs_writeH rfl fun u hu => ?_⟩
  intro pol
  refine ⟨fun hO => by rw [hu, hO]; rfl, fun x y hb => ?_⟩
  have hXNum : pol isoXNum x = poly isoXNum x := (poly_four _ _ _ _ x).symm
  have hXDen : pol isoXDen x = poly isoXDen x := (poly_four _ _ _ _ x).symm
  have hYNum : pol isoYNum x = poly isoYNum x := (poly_four _ _ _ _ x).symm
  have hYDen : pol isoYDen x = poly isoYDen x := (poly_four _ _ _ _ x).symm
  rw [hXNum, hXDen, hYNum, hYDen, hu, hb]
  refine ⟨iso_of_pole y, fun hx hy => ?_, onCurve2_iso⟩
  exact ⟨_, _, iso_of_no_pole y hx hy, quotient2_mul _ hx, quotient2_mul _ hy⟩

end Sys2Proof.Machine
end

section
/-! PROOFS. The instructions that compose what others compute: hashing to G2 (spec/48_hash_to_curve.md R427, R428, R435,
R436), keys and signatures, and the sums of runs of registers (spec/49_bls.md R454 to R456, R459, R460). -/

namespace Sys2Proof.Machine

open Sys2Proof

/-! Hashing to G2. -/

theorem h2cHash_exec (s : State) (a b c : RegIdx) : exec (.h2cHash a b c) s = retire s
    (memRead s (readR s b) (readR s c).toNat >>= fun msg => .ok (writeH s a (hashToG2 sha256 msg s.dstBuf))) := rfl

/-- Settles O54: the map and the hash are their stages, and the message is read first. -/
theorem hashingComposesItsStages : Obligations.HashingComposesItsStages := by
  refine ⟨fun a b c => ⟨rfl, rfl⟩, fun s a b c => ⟨?_, fun hf => ?_, ?_⟩⟩
  · exact runs_writeH rfl fun _ hu => hu
  · exact runs_writeH (exec_of_load (h2cHash_exec s a b c) hf) fun _ hu => ⟨_, _, rfl, hu⟩
  · exact traps_load (h2cHash_exec s a b c)

/-! Keys and signatures. -/

theorem blsSign_exec (s : State) (a b c d e : RegIdx) : exec (.blsSign a b c d e) s = retire s
    (if keyInRange (readK s c).toNat = false then .error (fails .scalarOutOfRange)
    else memRead s (readR s d) (readR s e).toNat >>= fun bytes =>
      .ok (writeH (writeH s b (hashToG2 sha256 bytes s.dstBuf)) a
        (mul2 (hashToG2 sha256 bytes s.dstBuf) (readK s c).toNat))) := rfl

theorem frame_writeH_writeH (s : State) (a b : RegIdx) (x y : Point Fp2) :
    Frame { h := [a, b] } s (writeH (writeH s b y) a x) where
  r _ _ := rfl
  f _ _ := rfl
  q _ _ := rfl
  s _ _ := rfl
  t _ _ := rfl
  g _ _ := rfl
  h j hj := by
    obtain ⟨ha, hb⟩ : j ≠ a ∧ j ≠ b := by simpa using hj
    rw [readH_writeH_other _ _ _ _ ha, readH_writeH_other _ _ _ _ hb]
  k _ _ := rfl
  dmem _ _ := rfl
  control := ⟨rfl, rfl, rfl, rfl, rfl, rfl, rfl, rfl⟩

theorem keyInRange_ne_false {n : Nat} (h : 0 < n ∧ n ≤ orderR) : ¬keyInRange n = false := by
  rw [(keyInRange_iff n).mpr h]
  decide

theorem keyInRange_eq_false {n : Nat} (h : ¬(0 < n ∧ n ≤ orderR)) : keyInRange n = false :=
  Bool.eq_false_iff.mpr (mt (keyInRange_iff n).mp h)

/-- Settles O55: the key is checked before the message is read, and of the two writes of `BLS.SIGN` the signature is the
later one. -/
theorem keysAndSignatures : Obligations.KeysAndSignatures := by
  refine ⟨fun a b c d e => ⟨rfl, rfl, rfl⟩, fun s a b c d e => ⟨fun hk => ?_, fun hk => ?_, fun hk hf => ?_,
    fun hk => ?_, fun hk hf => ?_, fun hk => ?_, fun hk => ?_⟩⟩
  · exact runs_writeG (exec_of_guard rfl (keyInRange_ne_false hk)) fun _ hu => hu
  · exact traps_of_guard rfl (keyInRange_eq_false hk)
  · have hload := exec_of_load (exec_of_guard (blsSign_exec s a b c d e) (keyInRange_ne_false hk)) hf
    exact runs_of_retire hload rfl (frame_writeH_writeH s a b _ _)
      ⟨by simp, fun hab => by simp [readH_writeH_other _ _ _ _ hab.symm]⟩
  · exact traps_of_guard (blsSign_exec s a b c d e) (keyInRange_eq_false hk)
  · exact traps_load (exec_of_guard (blsSign_exec s a b c d e) (keyInRange_ne_false hk)) hf
  · exact runs_writeH (exec_of_guard rfl (keyInRange_ne_false hk)) fun _ hu => hu
  · exact traps_of_guard rfl (keyInRange_eq_false hk)

/-! Sums of runs of registers. -/

/-- A fold over a list is the value of every sequence that starts where it starts and takes its steps. -/
theorem foldl_eq_of_steps {α β : Type} {f : β → α → β} (l : List α) {z : Nat → β}
    (h : ∀ j (hj : j < l.length), z (j + 1) = f (z j) l[j]) : l.foldl f (z 0) = z l.length := by
  induction l generalizing z with
  | nil => rfl
  | cons x l ih =>
    have hstep : z 1 = f (z 0) x := h 0 (Nat.zero_lt_succ _)
    rw [List.foldl_cons, ← hstep]
    exact ih (z := fun j => z (j + 1)) fun j hj => h (j + 1) (Nat.succ_lt_succ hj)

/-- An instruction that begins with a run of registers, where the run ends by register 15: it goes on with their
values. -/
theorem exec_of_run {α : Type} {i : Instr} {s : State} {file : RegFile α} {b : RegIdx} {n : Nat}
    {k : List α → Res State} (h : exec i s = retire s (regRun file b n >>= k)) (hrun : b.val + n ≤ 16) :
    ∃ pts, exec i s = retire s (k pts) ∧ pts.length = n ∧
      ∀ j (hj : j < pts.length), pts[j] = file.get (Fin.ofNat 16 (b.val + j)) := by
  obtain ⟨pts, hok, hpts⟩ := regRun_in file hrun
  exact ⟨pts, by rw [h, hok, res_ok_bind], hpts⟩

/-- The sum of a run is the last of its partial sums (R459, R460). -/
theorem pointSum_eq_of_steps {F : Type} [DecidableEq F] {ops : FieldOps F} {pts : List (Point F)} {p z : Nat → Point F}
    (hpts : ∀ j (hj : j < pts.length), pts[j] = p j) (hzero : z 0 = .O)
    (hstep : ∀ j < pts.length, z (j + 1) = ptAdd ops (z j) (p j)) : pointSum ops pts = z pts.length := by
  rw [pointSum, ← hzero]
  exact foldl_eq_of_steps pts fun j hj => by rw [hpts j hj, hstep j hj]

section
variable (s : State) (a b c : RegIdx)

theorem blsAggpk_exec : exec (.blsAggpk a b c) s = retire s
    (if readR s c = 0 then .error (fails .emptyList)
    else regRun s.g b (readR s c).toNat >>= fun pts => .ok (writeG s a (pointSum opsFp pts))) := rfl

theorem blsAggsig_exec : exec (.blsAggsig a b c) s = retire s
    (if readR s c = 0 then .error (fails .emptyList)
    else regRun s.h b (readR s c).toNat >>= fun pts => .ok (writeH s a (pointSum opsFp2 pts))) := rfl

end

theorem word_eq_zero_of_toNat {w : Word} (h : w.toNat = 0) : w = 0 := BitVec.eq_of_toNat_eq h

theorem word_ne_zero_of_pos {w : Word} (h : 0 < w.toNat) : w ≠ 0 := by
  rintro rfl
  exact absurd h (by decide)

/-- Settles O57: the count is checked before the run, and the run is read from the state before the write. -/
theorem aggregatesSumTheirRuns : Obligations.AggregatesSumTheirRuns := by
  refine ⟨fun a b c => ⟨rfl, rfl⟩, fun s a b c => ⟨fun hn => ?_, fun hn hout => ?_, fun hn hrun => ⟨?_, ?_⟩⟩⟩
  · exact ⟨traps_of_guard (blsAggpk_exec s a b c) (word_eq_zero_of_toNat hn),
      traps_of_guard (blsAggsig_exec s a b c) (word_eq_zero_of_toNat hn)⟩
  · exact ⟨traps_storeRun_regRange (exec_of_guard (blsAggpk_exec s a b c) (word_ne_zero_of_pos hn)) hout,
      traps_storeRun_regRange (exec_of_guard (blsAggsig_exec s a b c) (word_ne_zero_of_pos hn)) hout⟩
  · obtain ⟨pts, hexec, hlen, hpts⟩ :=
      exec_of_run (exec_of_guard (blsAggpk_exec s a b c) (word_ne_zero_of_pos hn)) hrun
    rw [← hlen]
    exact runs_writeG hexec fun _ hu _ hzero hstep => hu.trans (pointSum_eq_of_steps hpts hzero hstep)
  · obtain ⟨pts, hexec, hlen, hpts⟩ :=
      exec_of_run (exec_of_guard (blsAggsig_exec s a b c) (word_ne_zero_of_pos hn)) hrun
    rw [← hlen]
    exact runs_writeH hexec fun _ hu _ hzero hstep => hu.trans (pointSum_eq_of_steps hpts hzero hstep)

end Sys2Proof.Machine
end

section
/-! PROOFS. Verification (spec/49_bls.md R451 to R453, R457, R458, R461). The computations inside raise causes of at
least 0x20 only, which R453 turns into the answer 0; they answer 1 when every step of theirs answers and the last value
is one. -/

namespace Sys2Proof.Machine

open Sys2Proof

/-! The collapse (R453). -/

/-- `x` raises only exceptions that the collapse of R453 turns into the answer false. -/
def Collapsible {α : Type} (x : Res α) : Prop := ∀ e, x = .error e → 0x20 ≤ causeCode e.cause

section
variable {α β : Type}

theorem collapsible_ok (a : α) : Collapsible (.ok a : Res α) := nofun

theorem collapsible_fails {c : Cause} (hc : 0x20 ≤ causeCode c) : Collapsible (.error (fails c) : Res α) := by
  rintro e ⟨⟩
  exact hc

theorem collapsible_bind {x : Res α} {k : α → Res β} (hx : Collapsible x) (hk : ∀ a, Collapsible (k a)) :
    Collapsible (x >>= k) := by
  cases x with
  | ok a => exact hk a
  | error e =>
    rintro _ ⟨⟩
    exact hx e rfl

theorem res_bind_eq_ok_iff {x : Res α} {k : α → Res β} {b : β} :
    (x >>= k) = .ok b ↔ ∃ a, x = .ok a ∧ k a = .ok b :=
  ⟨res_bind_ok, fun ⟨_, hx, hk⟩ => by rw [hx, res_ok_bind, hk]⟩

end

theorem pairMl_collapsible (p : Point Fp) (q : Point Fp2) : Collapsible (pairMl p q) := by
  by_cases h : Pairable p q
  · cases p with
    | O => exact absurd rfl h.1
    | aff px py =>
      cases q with
      | O => exact absurd rfl h.2.1
      | aff qx qy =>
        rw [pairMl_of_pairable rfl rfl h]
        exact collapsible_ok _
  · rw [pairMl_of_not_pairable h]
    exact collapsible_fails (by decide)

theorem tFinalexp_collapsible (a : Fp12) : Collapsible (tFinalexp a) := by
  by_cases ha : a = zero12
  · rw [tFinalexp_of_eq_zero ha]
    exact collapsible_fails (by decide)
  · rw [tFinalexp_of_ne_zero ha]
    exact collapsible_ok _

theorem collapse_of_collapsible {v : Res Bool} (hv : Collapsible v) :
    ∃ b, collapse v = .ok b ∧ (b = true ↔ v = .ok true) := by
  cases v with
  | ok b => exact ⟨b, rfl, by simp⟩
  | error e => exact ⟨false, if_pos (hv e rfl), by simp⟩

/-- An instruction that writes whether a collapsed verification holds. -/
theorem runs_verdict {i : Instr} {s : State} {a : RegIdx} {v : Res Bool} {accepts : Prop}
    (h : exec i s = retire s (collapse v >>= fun b => .ok (writeR s a (boolWord b)))) (hv : Collapsible v)
    (hiff : v = .ok true ↔ accepts) : Runs i s { r := [a] } (fun u => Answers u a accepts) := by
  obtain ⟨b, hb, htrue⟩ := collapse_of_collapsible hv
  rw [hb, res_ok_bind] at h
  exact runs_writeR h fun _ hu => answers_boolWord (htrue.trans hiff) hu

/-- The last step of both verifications. -/
theorem finalexp_isOne_iff (x : Fp12) :
    (tFinalexp x >>= fun e => (.ok (decide (e = one12)) : Res Bool)) = .ok true ↔ tFinalexp x = .ok one12 := by
  rw [res_bind_eq_ok_iff]
  simp

theorem finalexp_isOne_collapsible (x : Fp12) :
    Collapsible (tFinalexp x >>= fun e => (.ok (decide (e = one12)) : Res Bool)) :=
  collapsible_bind (tFinalexp_collapsible x) fun _ => collapsible_ok _

/-! One signature (R451). -/

theorem coreVerify_collapsible (pk : Point Fp) (sig m : Point Fp2) : Collapsible (coreVerify pk sig m) :=
  collapsible_bind (pairMl_collapsible _ m) fun _ => collapsible_bind (pairMl_collapsible _ sig) fun _ =>
    finalexp_isOne_collapsible _

theorem coreVerify_iff (pk : Point Fp) (sig m : Point Fp2) :
    coreVerify pk sig m = .ok true ↔ ∃ A B, pairMl (ptNeg opsFp pk) m = .ok A ∧ pairMl gen1 sig = .ok B ∧
      tFinalexp (tMul A B) = .ok one12 := by
  rw [coreVerify, res_bind_eq_ok_iff]
  refine exists_congr fun A => ?_
  rw [res_bind_eq_ok_iff, ← exists_and_left]
  exact exists_congr fun B => by rw [finalexp_isOne_iff]

theorem blsVerifyb_exec (s : State) (a b c d e : RegIdx) : exec (.blsVerifyb a b c d e) s = retire s
    (memRead s (readR s d) (readR s e).toNat >>= fun msg =>
      collapse (coreVerify (readG s b) (readH s c) (hashToG2 sha256 msg s.dstBuf)) >>= fun v =>
        .ok (writeR s a (boolWord v))) := rfl

/-- Settles O56: of all that can raise only the read of the message is outside the collapse. -/
theorem verificationNeverRaisesInternally : Obligations.VerificationNeverRaisesInternally := by
  refine ⟨fun a b c d e => ⟨rfl, rfl⟩, fun s a b c d e => ⟨?_, fun hf => ?_, ?_⟩⟩
  · exact runs_verdict rfl (coreVerify_collapsible _ _ _) (coreVerify_iff _ _ _)
  · exact runs_verdict (exec_of_load (blsVerifyb_exec s a b c d e) hf) (coreVerify_collapsible _ _ _)
      (coreVerify_iff _ _ _)
  · exact traps_load (blsVerifyb_exec s a b c d e)

/-! A batch of signatures (R452). -/

theorem batchLoop_collapsible (pks : List (Point Fp)) (ms seen rest : List (Point Fp2)) (acc : Fp12) :
    Collapsible (batchLoop pks ms seen rest acc) := by
  induction rest generalizing seen acc with
  | nil => exact collapsible_ok _
  | cons m rest ih =>
    rw [batchLoop]
    split
    · exact ih _ _
    · have hpair := pairMl_collapsible (groupSum pks ms m) m
      generalize pairMl (groupSum pks ms m) m = value at hpair ⊢
      cases value with
      | ok f => exact ih _ _
      | error e => exact fun _ he => hpair _ (by cases he; rfl)

theorem batchVerify_collapsible (pks : List (Point Fp)) (ms : List (Point Fp2)) (asig : Point Fp2) :
    Collapsible (batchVerify pks ms asig) :=
  collapsible_bind (batchLoop_collapsible pks ms _ _ _) fun _ => collapsible_bind (pairMl_collapsible _ asig) fun _ =>
    finalexp_isOne_collapsible _

/-- The Miller value of the group of `m` with the sum of its keys. -/
def groupValue (pks : List (Point Fp)) (ms : List (Point Fp2)) (m : Point Fp2) : Res Fp12 :=
  pairMl (groupSum pks ms m) m

/-- The key sum of the messages equal to `m`, over the keys before `j`. -/
def keySum (pk : Nat → Point Fp) (msg : Nat → Point Fp2) (m : Point Fp2) : Nat → Point Fp
  | 0 => .O
  | j + 1 => if msg j = m then ptAdd opsFp (keySum pk msg m j) (pk j) else keySum pk msg m j

/-- One step of the accumulator: a message that has been seen changes nothing, a new one multiplies by the Miller
value of its group. -/
def BatchStep (value : Point Fp2 → Res Fp12) (msg : Nat → Point Fp2) (i : Nat) (x y : Fp12) : Prop :=
  ((∃ j < i, msg j = msg i) → y = x) ∧
  ((¬∃ j < i, msg j = msg i) → ∃ A, value (msg i) = .ok A ∧ y = tMul x A)

section
variable {pks : List (Point Fp)} {ms : List (Point Fp2)} {pk : Nat → Point Fp} {msg : Nat → Point Fp2}

/-- The sum of a group is the last value of every sequence of its partial sums. -/
theorem groupValue_eq_of_steps {m : Point Fp2} {z : Nat → Point Fp} (hlen : pks.length = ms.length)
    (hpks : ∀ j (hj : j < pks.length), pks[j] = pk j) (hms : ∀ j (hj : j < ms.length), ms[j] = msg j)
    (hzero : z 0 = .O) (hstep : ∀ j, z (j + 1) = if msg j = m then ptAdd opsFp (z j) (pk j) else z j) :
    groupValue pks ms m = pairMl (z ms.length) m := by
  have hzip : (pks.zip ms).length = ms.length := by rw [List.length_zip, hlen, Nat.min_self]
  rw [groupValue, groupSum, ← hzero, ← hzip]
  refine congrArg (pairMl · m) (foldl_eq_of_steps _ fun j hj => ?_)
  have hj' : j < ms.length := hzip ▸ hj
  rw [List.getElem_zip, hpks j (hlen ▸ hj'), hms j hj', hstep]

/-- The messages the loop has passed when it comes to message `k`. -/
def SeenBefore (msg : Nat → Point Fp2) (k : Nat) (seen : List (Point Fp2)) : Prop :=
  ∀ m, m ∈ seen ↔ ∃ j < k, msg j = m

theorem seenBefore_succ {k : Nat} {seen : List (Point Fp2)} (h : SeenBefore msg k seen) :
    SeenBefore msg (k + 1) (msg k :: seen) := by
  intro m
  rw [List.mem_cons, h m, Nat.exists_lt_succ_right, or_comm, eq_comm]

/-- The loop takes one step and goes on. -/
theorem batchLoop_cons_eq_ok_iff {k : Nat} {seen rest : List (Point Fp2)} {x r : Fp12} (hseen : SeenBefore msg k seen) :
    batchLoop pks ms seen (msg k :: rest) x = .ok r ↔
      ∃ y, BatchStep (groupValue pks ms) msg k x y ∧
        batchLoop pks ms (msg k :: seen) rest y = .ok r := by
  rw [batchLoop]
  by_cases hmem : ∃ j < k, msg j = msg k
  · rw [if_pos ((hseen _).mpr hmem)]
    simp [BatchStep, hmem]
  · rw [if_neg (mt (hseen _).mp hmem)]
    cases hvalue : pairMl (groupSum pks ms (msg k)) (msg k) <;> simp [BatchStep, hmem, groupValue, hvalue]

/-- The loop from message `k` on answers `r` exactly when steps lead from its accumulator to `r`. -/
theorem batchLoop_eq_ok_iff (rest : List (Point Fp2)) {k : Nat} {seen : List (Point Fp2)} {x r : Fp12}
    (hseen : SeenBefore msg k seen) (hrest : ∀ i (hi : i < rest.length), rest[i] = msg (k + i)) :
    batchLoop pks ms seen rest x = .ok r ↔
      ∃ acc : Nat → Fp12, acc k = x ∧ acc (k + rest.length) = r ∧ ∀ i, k ≤ i → i < k + rest.length →
        BatchStep (groupValue pks ms) msg i (acc i) (acc (i + 1)) := by
  induction rest generalizing k seen x with
  | nil =>
    rw [batchLoop, Except.ok.injEq]
    constructor
    · rintro rfl
      exact ⟨fun _ => x, rfl, rfl, fun i hk hi => absurd hi (Nat.not_lt.mpr hk)⟩
    · rintro ⟨acc, rfl, rfl, _⟩
      rfl
  | cons m rest ih =>
    obtain rfl : m = msg k := hrest 0 (Nat.zero_lt_succ _)
    have hrest' : ∀ i (hi : i < rest.length), rest[i] = msg (k + 1 + i) := fun i hi => by
      rw [Nat.add_assoc, Nat.add_comm 1 i]
      exact hrest (i + 1) (Nat.succ_lt_succ hi)
    have hend : k + (msg k :: rest).length = k + 1 + rest.length := by rw [List.length_cons]; omega
    rw [batchLoop_cons_eq_ok_iff hseen, hend]
    constructor
    · rintro ⟨y, hstep, hloop⟩
      obtain ⟨acc, hfirst, hlast, hsteps⟩ := (ih (seenBefore_succ hseen) hrest').mp hloop
      refine ⟨Function.update acc k x, Function.update_self .., ?_, fun i hk hi => ?_⟩
      · rw [Function.update_of_ne (by omega), hlast]
      · rw [Function.update_of_ne (by omega : i + 1 ≠ k)]
        obtain rfl | hlt := Nat.eq_or_lt_of_le hk
        · rwa [Function.update_self, hfirst]
        · rw [Function.update_of_ne (by omega)]
          exact hsteps i hlt hi
    · rintro ⟨acc, rfl, hlast, hsteps⟩
      refine ⟨acc (k + 1), hsteps k le_rfl (by omega), (ih (seenBefore_succ hseen) hrest').mpr ?_⟩
      exact ⟨acc, rfl, hlast, fun i hk => hsteps i (by omega)⟩

/-- The batch verifies exactly when the steps of the accumulator lead to a product that, with the Miller value of the
signature, is one after the final exponentiation. -/
theorem batchVerify_iff (hms : ∀ j (hj : j < ms.length), ms[j] = msg j) (asig : Point Fp2) :
    batchVerify pks ms asig = .ok true ↔ ∃ (acc : Nat → Fp12) (A : Fp12), acc 0 = one12 ∧
      (∀ i < ms.length, BatchStep (groupValue pks ms) msg i (acc i) (acc (i + 1))) ∧
      pairMl (ptNeg opsFp gen1) asig = .ok A ∧ tFinalexp (tMul (acc ms.length) A) = .ok one12 := by
  have hnone : SeenBefore msg 0 [] := fun m => by simp
  have hloop (r : Fp12) := batchLoop_eq_ok_iff (pks := pks) (ms := ms) (x := one12) (r := r) ms hnone
    fun i hi => by rw [Nat.zero_add, hms i hi]
  simp only [Nat.zero_add, Nat.zero_le, forall_const] at hloop
  rw [batchVerify, res_bind_eq_ok_iff]
  simp only [hloop, res_bind_eq_ok_iff (x := pairMl _ _), finalexp_isOne_iff]
  constructor
  · rintro ⟨_, ⟨acc, hfirst, rfl, hsteps⟩, A, hA, hone⟩
    exact ⟨acc, A, hfirst, hsteps, hA, hone⟩
  · rintro ⟨acc, A, hfirst, hsteps, hA, hone⟩
    exact ⟨_, ⟨acc, hfirst, rfl, hsteps⟩, A, hA, hone⟩

end

/-- The equation of the batch, as the statement writes it: partial key sums and accumulators given by their steps. -/
theorem batchVerify_iff_sums {pks : List (Point Fp)} {ms : List (Point Fp2)} {pk : Nat → Point Fp}
    {msg : Nat → Point Fp2} (hlen : pks.length = ms.length) (hpks : ∀ j (hj : j < pks.length), pks[j] = pk j)
    (hms : ∀ j (hj : j < ms.length), ms[j] = msg j) (asig : Point Fp2) :
    batchVerify pks ms asig = .ok true ↔ ∃ (S : Nat → Nat → Point Fp) (acc : Nat → Fp12) (A : Fp12),
      (∀ i, S i 0 = .O) ∧
      (∀ i j, S i (j + 1) = if msg j = msg i then ptAdd opsFp (S i j) (pk j) else S i j) ∧
      acc 0 = one12 ∧
      (∀ i < ms.length, (∃ j < i, msg j = msg i) → acc (i + 1) = acc i) ∧
      (∀ i < ms.length, (¬∃ j < i, msg j = msg i) →
        ∃ A', pairMl (S i ms.length) (msg i) = .ok A' ∧ acc (i + 1) = tMul (acc i) A') ∧
      pairMl (ptNeg opsFp gen1) asig = .ok A ∧ tFinalexp (tMul (acc ms.length) A) = .ok one12 := by
  rw [batchVerify_iff hms asig]
  constructor
  · rintro ⟨acc, A, hfirst, hsteps, hA, hone⟩
    refine ⟨fun i => keySum pk msg (msg i), acc, A, fun _ => rfl, fun _ _ => rfl, hfirst,
      fun i hi => (hsteps i hi).1, fun i hi hnew => ?_, hA, hone⟩
    have hvalue := groupValue_eq_of_steps hlen hpks hms (z := keySum pk msg (msg i)) rfl fun _ => rfl
    obtain ⟨A', hA', hacc⟩ := (hsteps i hi).2 hnew
    exact ⟨A', hvalue.symm.trans hA', hacc⟩
  · rintro ⟨S, acc, A, hzero, hsum, hfirst, hold, hnew, hA, hone⟩
    refine ⟨acc, A, hfirst, fun i hi => ⟨hold i hi, fun hfresh => ?_⟩, hA, hone⟩
    rw [groupValue_eq_of_steps hlen hpks hms (hzero i) (hsum i)]
    exact hnew i hi hfresh

/-! The instruction (R461). -/

section
variable {s : State} {a b c d e n : RegIdx}

theorem blsVerifyn_exec : exec (.blsVerifyn a b c d e n) s = retire s
    (if readR s e = 0 then .error (fails .emptyList)
    else if readR s d ≠ readR s e then .error (fails .lengthMismatch)
    else regRun s.g b (readR s d).toNat >>= fun pks => regRun s.h c (readR s e).toNat >>= fun ms =>
      collapse (batchVerify pks ms (readH s n)) >>= fun v => .ok (writeR s a (boolWord v))) := rfl

/-- Both counts are in order: the runs come next. -/
theorem blsVerifyn_exec_runs (hpos : 0 < (readR s e).toNat) (heq : (readR s d).toNat = (readR s e).toNat) :
    exec (.blsVerifyn a b c d e n) s = retire s
      (regRun s.g b (readR s d).toNat >>= fun pks => regRun s.h c (readR s e).toNat >>= fun ms =>
        collapse (batchVerify pks ms (readH s n)) >>= fun v => .ok (writeR s a (boolWord v))) :=
  exec_of_guard (exec_of_guard blsVerifyn_exec (word_ne_zero_of_pos hpos)) (not_not.mpr (BitVec.eq_of_toNat_eq heq))

/-- The run of keys is checked before the run of messages; each raises the same cause. -/
theorem blsVerifyn_traps_regRange (hpos : 0 < (readR s e).toNat) (heq : (readR s d).toNat = (readR s e).toNat)
    (hout : 16 < b.val + (readR s d).toNat ∨ 16 < c.val + (readR s e).toNat) :
    Traps (.blsVerifyn a b c d e n) s .regRange 0 := by
  have hexec := blsVerifyn_exec_runs (a := a) (b := b) (c := c) (n := n) hpos heq
  by_cases hkeys : 16 < b.val + (readR s d).toNat
  · exact traps_storeRun_regRange hexec hkeys
  · obtain ⟨pks, hexec, _⟩ := exec_of_run hexec (Nat.not_lt.mp hkeys)
    exact traps_storeRun_regRange hexec (hout.resolve_left hkeys)

end

/-- Settles O58: the counts and the runs are checked in order, and then the answer is that of the batch equation. -/
theorem batchVerification : Obligations.BatchVerification := by
  refine ⟨fun a b c d e n => rfl, fun s a b c d e n => ⟨fun hzero => ?_, fun hpos hne => ?_, blsVerifyn_traps_regRange,
    fun hpos heq hkeys hmsgs => ?_⟩⟩
  · exact traps_of_guard blsVerifyn_exec (word_eq_zero_of_toNat hzero)
  · exact traps_of_guard (exec_of_guard blsVerifyn_exec (word_ne_zero_of_pos hpos)) fun hw => hne (congrArg _ hw)
  · obtain ⟨pks, hexec, hpkslen, hpks⟩ := exec_of_run (blsVerifyn_exec_runs hpos heq) hkeys
    obtain ⟨ms, hexec, hmslen, hms⟩ := exec_of_run hexec hmsgs
    have hlen : pks.length = ms.length := by rw [hpkslen, hmslen, heq]
    rw [← hmslen]
    exact runs_verdict hexec (batchVerify_collapsible pks ms _) (batchVerify_iff_sums hlen hpks hms _)

end Sys2Proof.Machine
end
